-- ==== Sys2Proof/Word.lean ====
section
/-! DEFINITION. The words of the block: bytes, single bits and byte sequences (spec 00_scope R9, R10). -/

namespace Sys2Proof

/-- A byte, bit 0 the least significant (R9). -/
abbrev Byte := BitVec 8

/-- A one-bit field, such as `SEQ` (R9, R25). -/
abbrev Bit := BitVec 1

/-- A byte sequence, byte 0 the first on the wire (R10, R53). -/
abbrev Bytes := List Byte

end Sys2Proof
end

