-- ==== Sys2Proof/Config.lean ====
section
/-! DEFINITION. Constants the source fixes (spec 00_scope R7), and the three parameters it leaves open (R8) as free values,
of which nothing is known but what R8 says: the buffer capacity, the transport's capability flag and the values of its
error detail. -/

namespace Sys2Proof.Config

/-- `MAX_PAYLOAD_LEN`: the largest INF field the block builds (R7, R151). -/
def maxPayload : Nat := 254

/-- `FRAGMENT_LEN`: the request bytes one I-block of the send phase carries (R7, R191). -/
def fragmentLen : Nat := 254

/-- `DEFAULT_CHAIN_SEG`: the segment length of APDU_CHAIN where none is written (R7, R89). -/
def defaultChainSeg : Nat := 255

/-- `CHAIN_BIT`: the command-chaining bit of CLA (R7, R83). -/
def chainBit : Byte := 0x10

/-- `MAX_APDU_DATA`: the most command data bytes of a valid APDU (R7, R100). -/
def maxApduData : Nat := 65535

/-- `MAX_NE`: the largest expected response length (R7, R100). -/
def maxNe : Nat := 65536

/-- `PPS_REQUEST` (R7, R86). -/
def ppsRequest : Bytes := [0xFF, 0x01, 0xFE]

/-- `OUT_NAD`: the NAD of every block the engine builds (R7, R150, R155). -/
def outNad : Byte := 0x00

/-- The largest segment length APDU_CHAIN accepts (R122). -/
def maxChainSeg : Nat := 65535

/-- What a machine's buffers hold beyond the least capacity R8 allows: a free value, nothing constrains it. -/
opaque bufExtra : Nat

/-- `BUF_CAP`: the longest byte sequence the block accepts as an operand or builds as a result, at least 65544 (R8). -/
def bufCap : Nat := bufExtra + 65544

/-- Whether `n` bytes are at most `BUF_CAP`; the first test lets it be evaluated wherever R8 alone decides it. -/
def withinCap (n : Nat) : Bool := n.ble 65544 || n.ble bufCap

/-- `AUTO_NEG`: whether the attached transport negotiates the protocol by itself, a free value (R8, R34; log entry 5). -/
opaque autoNeg : Bool

/-- Which naturals beyond 0 stand for an error detail of the attached transport: a free value (R8; log entry 7). -/
opaque furtherErrDetail : Nat → Bool

/-- Whether `n` stands for an error detail of the attached transport. Any set of naturals with 0 in it is some
transport's, so that every type of plain data with a value is one of them (R8 `TransportErr`, D40). -/
def isErrDetail (n : Nat) : Bool := n.beq 0 || furtherErrDetail n

end Sys2Proof.Config
end

