-- ==== Sys2Proof/Machine/Bytes.lean ====
section
/-! DEFINITION. Helpers on byte sequences (spec 00_scope R10, 20_memory R53): subsequences, single bytes and big-endian
pairs. -/

namespace Sys2Proof.Machine

/-- `b[i..j)`: the bytes from `i` up to but not including `j` (R10). -/
def slice (b : Bytes) (i j : Nat) : Bytes := (b.drop i).take (j - i)

/-- `b[i]` as a byte; callers check that `i` is a position of `b` (R10). -/
def byteAt (b : Bytes) (i : Nat) : Byte := b.getD i 0

/-- `b[i]` as a number (R10). -/
def natAt (b : Bytes) (i : Nat) : Nat := (byteAt b i).toNat

/-- `n mod 256` as a byte. -/
def lowByte (n : Nat) : Byte := BitVec.ofNat 8 n

/-- `n mod 65536` as two bytes, most significant first (R53). -/
def be16 (n : Nat) : Bytes := [lowByte (n / 256), lowByte n]

/-- The two bytes at `i` and `i + 1` read as a big-endian number (R53). -/
def be16At (b : Bytes) (i : Nat) : Nat := natAt b i * 256 + natAt b (i + 1)

end Sys2Proof.Machine
end

