-- ==== Sys2Proof/Syntax.lean ====
section
/-! DEFINITION. The instructions of the block: one constructor of `Instr` per row of spec/opcode_table.json, the values
they carry, and the words the three ports carry them in (spec 30_encoding). -/

namespace Sys2Proof

/-- `CFG.EDC_TYPE`: the checksum selector (10_state R28). -/
inductive EdcType where
  | lrc
  | crc
  deriving DecidableEq, Repr

/-- The error codes of 60_exceptions R250, by name. `frmUnknownKind` is reserved and never raised (R76). -/
inductive ErrCode where
  | encEmptyRequest
  | encPayloadTooLong
  | encApduField
  | encApduDecode
  | encBadOperand
  | encBadOpcode
  | frmChecksum
  | frmUnknownKind
  | frmRNonempty
  | frmTruncated
  | frmRErrorUnmapped
  | frmLenReserved
  | protoUnderflow
  | protoExpectedIblock
  | protoREdcError
  | protoROtherError
  | protoNoResponse
  | protoRespOverflow
  | connPpsMismatch
  | connAlreadyConnected
  | connNotConnected
  | capCrcUnsupported
  | transport
  deriving DecidableEq, Repr

/-- The error field of an R-block, PCB bits 1:0 (30_encoding R77); the pattern `11` has no value. -/
inductive RError where
  | noError
  | edcError
  | otherError
  deriving DecidableEq, Repr

/-- A command APDU value (40_apdu_codec R100). -/
structure CommandApdu where
  cla : Byte
  ins : Byte
  p1 : Byte
  p2 : Byte
  data : Bytes
  ne : Nat
  deriving DecidableEq, Repr

/-- A response APDU value (40_apdu_codec R101). -/
structure ResponseApdu where
  body : Bytes
  sw1 : Byte
  sw2 : Byte
  deriving DecidableEq, Repr

/-- The block record `ParseBlock` returns (42_block R160). -/
inductive Block where
  | i (nad pcb : Byte) (inf edc : Bytes) (seq chaining : Bit)
  | s (nad pcb : Byte) (inf edc : Bytes)
  | r (nad pcb : Byte) (inf edc : Bytes) (seq : Bit) (error : RError)
  deriving DecidableEq, Repr

/-- What a command can return, by the "result value" column of 30_encoding R70. -/
inductive Value where
  | byte (b : Byte)
  | bytes (b : Bytes)
  | apdu (a : CommandApdu)
  | rapdu (r : ResponseApdu)
  | apdus (l : List CommandApdu)
  | block (b : Block)
  deriving DecidableEq, Repr

/-- The command opcodes of 30_encoding R70, by name. -/
inductive Opcode where
  | edcCompute
  | edcLength
  | apduEncode
  | apduDecode
  | rapduEncode
  | rapduDecode
  | apduChain
  | frameBuildI
  | frameBuildR
  | frameParse
  | connect
  | transceive
  | disconnect
  deriving DecidableEq, Repr

/-- The operand record a command arrives with at the command port (30_encoding R70), one shape per list of operands.
`byte` and `bit` operands stand as naturals, so that a value outside their range can be presented and refused as R70
says a model with wider operand types does (log entry 8). -/
inductive Operands where
  | none
  /-- EDC_COMPUTE: `bytes`, `end`. -/
  | bytesEnd (bytes : Bytes) (stop : Nat)
  /-- APDU_ENCODE. -/
  | apdu (cla ins p1 p2 : Nat) (data : Bytes) (ne : Nat)
  /-- APDU_CHAIN. -/
  | apduSeg (cla ins p1 p2 : Nat) (data : Bytes) (ne seg : Nat)
  /-- APDU_DECODE, RAPDU_DECODE and FRAME_PARSE (`bytes`), TRANSCEIVE (`req`). -/
  | bytes (bytes : Bytes)
  /-- RAPDU_ENCODE. -/
  | rapdu (body : Bytes) (sw1 sw2 : Nat)
  /-- FRAME_BUILD_I. -/
  | frameI (seq chaining : Nat) (inf : Bytes)
  /-- FRAME_BUILD_R. -/
  | ackseq (n : Nat)
  deriving DecidableEq, Repr

/-- What arrives at a port and can be an instruction: a command (R70), a register port word with its data value (R88),
or the bytes of a received block (R72). -/
inductive Words where
  | command (op : Byte) (operands : Operands)
  | regPort (w : BitVec 16) (data : Byte)
  | frame (bytes : Bytes)
  deriving DecidableEq, Repr

/-- The instructions: one constructor per row of spec/opcode_table.json. -/
inductive Instr where
  /-- EDC_COMPUTE (R142); `stop` is the operand `end`. -/
  | edcCompute (bytes : Bytes) (stop : Nat)
  /-- EDC_LENGTH (R144). -/
  | edcLength
  /-- APDU_ENCODE (R104). -/
  | apduEncode (apdu : CommandApdu)
  /-- APDU_DECODE (R110). -/
  | apduDecode (bytes : Bytes)
  /-- RAPDU_ENCODE (R118). -/
  | rapduEncode (rapdu : ResponseApdu)
  /-- RAPDU_DECODE (R116). -/
  | rapduDecode (bytes : Bytes)
  /-- APDU_CHAIN (R122). -/
  | apduChain (apdu : CommandApdu) (seg : Nat)
  /-- FRAME_BUILD_I (R152). -/
  | frameBuildI (seq chaining : Bit) (inf : Bytes)
  /-- FRAME_BUILD_R (R157). -/
  | frameBuildR (ackseq : Bit)
  /-- FRAME_PARSE (R168). -/
  | frameParse (bytes : Bytes)
  /-- CONNECT (R184). -/
  | connect
  /-- TRANSCEIVE (R190). -/
  | transceive (req : Bytes)
  /-- DISCONNECT (R200). -/
  | disconnect
  /-- REG_READ (R230). -/
  | regRead (idx : Byte)
  /-- REG_WRITE (R231). -/
  | regWrite (idx value : Byte)
  /-- PCB_I (R73): a received I-block; `low` is PCB bits 4:0, which the decoder does not read. -/
  | pcbI (nad : Byte) (seq chaining : Bit) (low : BitVec 5) (inf : Bytes)
  /-- PCB_S (R75): a received S-block; `low` is PCB bits 5:0. -/
  | pcbS (nad : Byte) (low : BitVec 6) (inf : Bytes)
  /-- PCB_R (R74): a received R-block; `bit5` and `mid` are PCB bits 5 and 3:2, which the decoder does not read. -/
  | pcbR (nad : Byte) (bit5 seq : Bit) (mid : BitVec 2) (error : RError)
  deriving DecidableEq, Repr

end Sys2Proof
end

