-- ==== Sys2Proof/Machine/Apdu.lean ====
section
/-! DEFINITION. The APDU parser's functions: encoding, decoding and command chaining (spec 40_apdu_codec R102 to R122). -/

namespace Sys2Proof.Machine

/-- `ext(a)`: the extended form is used for both length fields exactly when one of them needs it (R102). -/
def apduExtended (a : CommandApdu) : Bool := decide (a.data.length > 255) || decide (a.ne > 256)

/-- `Check(a)`: the APDU is valid (R100, R103). -/
def apduValid (a : CommandApdu) : Bool :=
  decide (a.data.length ≤ Config.maxApduData) && decide (a.ne ≤ Config.maxNe)

/-- The four header bytes (R81). -/
def apduHeader (a : CommandApdu) : Bytes := [a.cla, a.ins, a.p1, a.p2]

/-- The body after the header, by form (R81, R82, R104). -/
def apduBody (a : CommandApdu) : Bytes :=
  let nc := a.data.length
  if nc = 0 ∧ a.ne = 0 then []
  else if nc = 0 then
    if apduExtended a then [0x00] ++ be16 a.ne else [lowByte a.ne]
  else
    let lc := if apduExtended a then [0x00] ++ be16 nc else [lowByte nc]
    let le := if a.ne = 0 then [] else if apduExtended a then be16 a.ne else [lowByte a.ne]
    lc ++ a.data ++ le

/-- APDU_ENCODE's function (R104). -/
def encodeApdu (a : CommandApdu) : Except ErrCode Bytes :=
  if apduValid a then .ok (apduHeader a ++ apduBody a) else .error .encApduField

/-- The `Ne` a short Le byte stands for: 0 is 256 (R82, R110). -/
def neOfShort (n : Nat) : Nat := if n = 0 then 256 else n

/-- The `Ne` an extended Le stands for: 0 is 65536 (R82, R110). -/
def neOfExtended (n : Nat) : Nat := if n = 0 then 65536 else n

/-- The short forms 3S and 4S, byte 4 being a non-zero Lc (R110). -/
def decodeShort (mk : Bytes → Nat → CommandApdu) (b : Bytes) : Except ErrCode CommandApdu :=
  let n := b.length
  let nc := natAt b 4
  if n = 5 + nc then .ok (mk (slice b 5 n) 0)
  else if n = 6 + nc then .ok (mk (slice b 5 (5 + nc)) (neOfShort (natAt b (n - 1))))
  else .error .encApduDecode

/-- The extended forms 2E, 3E and 4E, byte 4 being 0x00 (R110). -/
def decodeExtended (mk : Bytes → Nat → CommandApdu) (b : Bytes) : Except ErrCode CommandApdu :=
  let n := b.length
  let x := be16At b 5
  if n < 7 then .error .encApduDecode
  else if n = 7 then .ok (mk [] (neOfExtended x))
  else if x = 0 then .error .encApduDecode
  else if n = 7 + x then .ok (mk (slice b 7 n) 0)
  else if n = 9 + x then .ok (mk (slice b 7 (7 + x)) (neOfExtended (be16At b (n - 2))))
  else .error .encApduDecode

/-- APDU_DECODE's function (R110). -/
def decodeApdu (b : Bytes) : Except ErrCode CommandApdu :=
  let n := b.length
  let mk := CommandApdu.mk (byteAt b 0) (byteAt b 1) (byteAt b 2) (byteAt b 3)
  if n < 4 then .error .encApduDecode
  else if n = 4 then .ok (mk [] 0)
  else if n = 5 then .ok (mk [] (neOfShort (natAt b 4)))
  else if natAt b 4 ≠ 0 then decodeShort mk b
  else decodeExtended mk b

/-- RAPDU_ENCODE's bytes (R84, R118). -/
def encodeRapdu (r : ResponseApdu) : Bytes := r.body ++ [r.sw1, r.sw2]

/-- RAPDU_DECODE's function (R116). -/
def decodeRapdu (b : Bytes) : Except ErrCode ResponseApdu :=
  let n := b.length
  if n < 2 then .error .encApduDecode
  else .ok ⟨slice b 0 (n - 2), byteAt b (n - 2), byteAt b (n - 1)⟩

/-- `ceil(a / b)` (R10). -/
def ceilDiv (a b : Nat) : Nat := (a + b - 1) / b

/-- Segment `i` of a chain, but the last: the chaining bit set and no expected response (R122). -/
def chainSegment (a : CommandApdu) (s i : Nat) : CommandApdu :=
  { a with cla := a.cla ||| Config.chainBit, data := slice a.data (i * s) ((i + 1) * s), ne := 0 }

/-- The last of `k` segments: the operand's `cla` and `ne` (R122). -/
def chainLast (a : CommandApdu) (s k : Nat) : CommandApdu :=
  { a with data := slice a.data ((k - 1) * s) a.data.length }

/-- APDU_CHAIN's list of APDUs for a legal segment length `s` (R122). -/
def chainApdus (a : CommandApdu) (s : Nat) : List CommandApdu :=
  if a.data.length ≤ s then [a]
  else
    let k := ceilDiv a.data.length s
    (List.range (k - 1)).map (chainSegment a s) ++ [chainLast a s k]

/-- APDU_CHAIN's function: the APDU check, then the segment length (R122, R255). -/
def chainApdu (a : CommandApdu) (seg : Nat) : Except ErrCode (List CommandApdu) :=
  if apduValid a = false then .error .encApduField
  else if seg = 0 ∨ seg > Config.maxChainSeg then .error .encBadOperand
  else .ok (chainApdus a seg)

end Sys2Proof.Machine
end

