-- ==== Sys2Proof/Machine/Checksum.lean ====
section
/-! DEFINITION. The LRC checksum generator (spec 41_checksum R140, R141, R144). -/

namespace Sys2Proof.Machine

/-- `LRC(b, e)`: the exclusive OR of the bytes at positions 0 up to but not including `e` (R140). -/
def lrc (b : Bytes) (e : Nat) : Byte := (b.take e).foldl (· ^^^ ·) 0

/-- `Checksum(b, e)`: the selected checksum of a part of `b` that starts at 0, or the CRC failure (R141). -/
def checksum (t : EdcType) (b : Bytes) (e : Nat) : Except ErrCode Bytes :=
  match t with
  | .lrc => .ok [lrc b e]
  | .crc => .error .capCrcUnsupported

/-- The EDC length of the selected checksum (R144, R7). -/
def edcLength (t : EdcType) : Byte :=
  match t with
  | .lrc => 1
  | .crc => 2

end Sys2Proof.Machine
end

