-- ==== Sys2Proof/Machine/Frame.lean ====
section
/-! DEFINITION. The T=1 frame encoder and decoder: `BuildI`, `BuildR` and `ParseBlock` (spec 42_block R150, R155, R160)
over the PCB layouts of 30_encoding R73 to R77. -/

namespace Sys2Proof.Machine

/-- The PCB byte of an I-block: bit 6 the sequence bit, bit 5 the chaining bit (R73). -/
def pcbOfI (seq chaining : Bit) (low : BitVec 5) : Byte := 0#1 ++ seq ++ chaining ++ low

/-- The PCB byte of an S-block (R75). -/
def pcbOfS (low : BitVec 6) : Byte := 3#2 ++ low

/-- PCB bits 1:0 of an R-block (R77). -/
def rErrorBits : RError → BitVec 2
  | .noError => 0
  | .edcError => 1
  | .otherError => 2

/-- The R-block error a pattern of PCB bits 1:0 stands for; `11` is unmapped (R77). -/
def rErrorOfBits (b : BitVec 2) : Option RError :=
  if b = 0 then some .noError
  else if b = 1 then some .edcError
  else if b = 2 then some .otherError
  else none

/-- The PCB byte of an R-block: bit 4 the sequence bit, bits 1:0 the error (R74). -/
def pcbOfR (bit5 seq : Bit) (mid : BitVec 2) (error : RError) : Byte :=
  2#2 ++ bit5 ++ seq ++ mid ++ rErrorBits error

/-- Bit `k` of a PCB byte. -/
def pcbBit (p : Byte) (k : Nat) : Bit := p.extractLsb' k 1

/-- NAD, PCB, LEN and INF of a block, the bytes its EDC covers (R72). -/
def frameBody (nad pcb : Byte) (inf : Bytes) : Bytes := [nad, pcb, lowByte inf.length] ++ inf

/-- The LRC-framed block with these fields (R72, R79). -/
def frameBytes (nad pcb : Byte) (inf : Bytes) : Bytes :=
  frameBody nad pcb inf ++ [lrc (frameBody nad pcb inf) (frameBody nad pcb inf).length]

/-- A block's body with the selected checksum appended (R141, R150, R155). -/
def withEdc (t : EdcType) (f : Bytes) : Except ErrCode Bytes :=
  match checksum t f f.length with
  | .ok edc => .ok (f ++ edc)
  | .error e => .error e

/-- `BuildI(seq, ch, inf)`: the length check, then the checksum (R150, R151). -/
def buildI (t : EdcType) (seq chaining : Bit) (inf : Bytes) : Except ErrCode Bytes :=
  if inf.length > Config.maxPayload then .error .encPayloadTooLong
  else withEdc t (frameBody Config.outNad (pcbOfI seq chaining 0) inf)

/-- `BuildR(n)`: the acknowledgement of an I-block whose sequence bit is `n`; it carries `n + 1` (R155, R156). -/
def buildR (t : EdcType) (n : Bit) : Except ErrCode Bytes :=
  withEdc t (frameBody Config.outNad (pcbOfR 0 (n + 1) 0 .noError) [])

/-- The kinds of block (R76). -/
inductive BlockKind where
  | i
  | s
  | r
  deriving DecidableEq, Repr

/-- Kind dispatch on the PCB byte, in the order I, S, R (R76); with these masks no PCB is without a kind. -/
def kindOf (p : Byte) : BlockKind :=
  if p &&& 0x80 = 0x00 then .i
  else if p &&& 0xC0 = 0xC0 then .s
  else .r

/-- The block record of a sequence that has passed the length and checksum tests (R160, R164, R166). -/
def classify (b : Bytes) (l : Nat) : Except ErrCode Block :=
  let p := byteAt b 1
  let inf := slice b 3 (3 + l)
  let edc := [byteAt b (3 + l)]
  match kindOf p with
  | .i => .ok (.i (byteAt b 0) p inf edc (pcbBit p 6) (pcbBit p 5))
  | .s => .ok (.s (byteAt b 0) p inf edc)
  | .r =>
    if l ≠ 0 then .error .frmRNonempty
    else match rErrorOfBits (p.extractLsb' 0 2) with
      | none => .error .frmRErrorUnmapped
      | some e => .ok (.r (byteAt b 0) p [] edc (pcbBit p 4) e)

/-- `ParseBlock(b)`, the checks in the order of R160 (R161 to R166, R255). -/
def parseBlock (t : EdcType) (b : Bytes) : Except ErrCode Block :=
  if t = .crc then .error .capCrcUnsupported
  else if b.length < 4 then .error .frmTruncated
  else
    let l := natAt b 2
    if b.length < 4 + l then .error .frmTruncated
    else if b.length > 4 + l then .error .frmChecksum
    else if byteAt b (3 + l) ≠ lrc b (3 + l) then .error .frmChecksum
    else if l = 255 then .error .frmLenReserved
    else classify b l

end Sys2Proof.Machine
end

