-- ==== Sys2Proof/WellFormed.lean ====
section
/-! DEFINITION. Which instructions the encodings of spec 30_encoding can carry. Every command and register port operation
is well formed at every operand value its type admits (range errors of naturals and over-long sequences are the
command's own errors, R51, R70); a received block carries at most 254 INF bytes (R72, R78). -/

namespace Sys2Proof

/-- An INF field a T=1 block may carry: 0 to 254 bytes (R72, R78). -/
def infFits (inf : Bytes) : Bool := inf.length ≤ Config.maxPayload

/-- The check on instructions. -/
def Instr.wf : Instr → Bool
  | .edcCompute _ _ => true
  | .edcLength => true
  | .apduEncode _ => true
  | .apduDecode _ => true
  | .rapduEncode _ => true
  | .rapduDecode _ => true
  | .apduChain _ _ => true
  | .frameBuildI _ _ _ => true
  | .frameBuildR _ => true
  | .frameParse _ => true
  | .connect => true
  | .transceive _ => true
  | .disconnect => true
  | .regRead _ => true
  | .regWrite _ _ => true
  | .pcbI _ _ _ _ inf => infFits inf
  | .pcbS _ _ inf => infFits inf
  | .pcbR _ _ _ _ _ => true

end Sys2Proof
end

