-- ==== Sys2Proof/Decode.lean ====
section
/-! DEFINITION. The decoder of the three kinds of words (commands, register port words, received blocks), total and
rejecting by name, and the encoder (spec 30_encoding R70 to R88, 42_block R160, R169). -/

namespace Sys2Proof

open Sys2Proof.Machine (parseBlock frameBytes pcbOfI pcbOfS pcbOfR)

/-- Why words are no instruction. -/
inductive Reject where
  /-- An opcode R71 reserves. -/
  | reservedOpcode
  /-- A `byte` or `bit` operand outside its declared range (R70). -/
  | operandRange
  /-- An operand record that is not the opcode's (R70: the port is typed; log entry 8). -/
  | operandShape
  /-- A register port word with bits 14:8 not all 0 (R88). -/
  | reservedWordBits
  /-- A received sequence that `ParseBlock` refuses (R160). -/
  | frame (e : ErrCode)
  deriving DecidableEq, Repr

/-- The opcode table of R70. -/
def opcodeTable : List (Byte × Opcode) :=
  [(0x01, .edcCompute), (0x02, .edcLength), (0x10, .apduEncode), (0x11, .apduDecode), (0x12, .rapduEncode),
   (0x13, .rapduDecode), (0x14, .apduChain), (0x20, .frameBuildI), (0x21, .frameBuildR), (0x22, .frameParse),
   (0x30, .connect), (0x31, .transceive), (0x32, .disconnect)]

/-- The opcode a byte stands for; none for a reserved one (R70, R71). -/
def opcodeOf (op : Byte) : Option Opcode := opcodeTable.lookup op

/-- The byte of an opcode (R70). -/
def Opcode.code : Opcode → Byte
  | .edcCompute => 0x01
  | .edcLength => 0x02
  | .apduEncode => 0x10
  | .apduDecode => 0x11
  | .rapduEncode => 0x12
  | .rapduDecode => 0x13
  | .apduChain => 0x14
  | .frameBuildI => 0x20
  | .frameBuildR => 0x21
  | .frameParse => 0x22
  | .connect => 0x30
  | .transceive => 0x31
  | .disconnect => 0x32

/-- Four `byte` operands and an APDU's data and `ne` as an APDU value, if the bytes are in range (R70). -/
def narrowApdu (cla ins p1 p2 : Nat) (data : Bytes) (ne : Nat) : Except Reject CommandApdu :=
  if cla < 256 ∧ ins < 256 ∧ p1 < 256 ∧ p2 < 256 then
    .ok ⟨BitVec.ofNat 8 cla, BitVec.ofNat 8 ins, BitVec.ofNat 8 p1, BitVec.ofNat 8 p2, data, ne⟩
  else .error .operandRange

/-- The command an opcode and its operand record stand for (R70). -/
def decodeOperands : Opcode → Operands → Except Reject Instr
  | .edcCompute, .bytesEnd bytes stop => .ok (.edcCompute bytes stop)
  | .edcLength, .none => .ok .edcLength
  | .apduEncode, .apdu cla ins p1 p2 data ne => (narrowApdu cla ins p1 p2 data ne).map .apduEncode
  | .apduDecode, .bytes bytes => .ok (.apduDecode bytes)
  | .rapduEncode, .rapdu body sw1 sw2 =>
    if sw1 < 256 ∧ sw2 < 256 then .ok (.rapduEncode ⟨body, BitVec.ofNat 8 sw1, BitVec.ofNat 8 sw2⟩)
    else .error .operandRange
  | .rapduDecode, .bytes bytes => .ok (.rapduDecode bytes)
  | .apduChain, .apduSeg cla ins p1 p2 data ne seg =>
    (narrowApdu cla ins p1 p2 data ne).map (fun a => .apduChain a seg)
  | .frameBuildI, .frameI seq chaining inf =>
    if seq < 2 ∧ chaining < 2 then .ok (.frameBuildI (BitVec.ofNat 1 seq) (BitVec.ofNat 1 chaining) inf)
    else .error .operandRange
  | .frameBuildR, .ackseq n =>
    if n < 2 then .ok (.frameBuildR (BitVec.ofNat 1 n)) else .error .operandRange
  | .frameParse, .bytes bytes => .ok (.frameParse bytes)
  | .connect, .none => .ok .connect
  | .transceive, .bytes req => .ok (.transceive req)
  | .disconnect, .none => .ok .disconnect
  | _, _ => .error .operandShape

/-- The command port's decoder: the opcode first, then the operands (R70, R71, R255). -/
def decodeCommand (op : Byte) (operands : Operands) : Except Reject Instr :=
  match opcodeOf op with
  | none => .error .reservedOpcode
  | some c => decodeOperands c operands

/-- The register port's decoder: bit 15 is `W`, bits 14:8 must be 0, bits 7:0 are `IDX` (R88). -/
def decodeRegPort (w : BitVec 16) (data : Byte) : Except Reject Instr :=
  if w.extractLsb' 8 7 ≠ 0 then .error .reservedWordBits
  else if w.extractLsb' 15 1 = 0 then .ok (.regRead (w.extractLsb' 0 8))
  else .ok (.regWrite (w.extractLsb' 0 8) data)

/-- The instruction a parsed block is, by its kind and PCB fields (R73 to R77). -/
def instrOfBlock : Block → Instr
  | .i nad pcb inf _ seq chaining => .pcbI nad seq chaining (pcb.extractLsb' 0 5) inf
  | .s nad pcb inf _ => .pcbS nad (pcb.extractLsb' 0 6) inf
  | .r nad pcb _ _ seq error => .pcbR nad (pcb.extractLsb' 5 1) seq (pcb.extractLsb' 2 2) error

/-- The decoder of received blocks with the LRC selected (R160). -/
def decodeFrame (b : Bytes) : Except Reject Instr :=
  match parseBlock .lrc b with
  | .ok blk => .ok (instrOfBlock blk)
  | .error e => .error (.frame e)

/-- The decoder of any words. -/
def decode : Words → Except Reject Instr
  | .command op operands => decodeCommand op operands
  | .regPort w data => decodeRegPort w data
  | .frame bytes => decodeFrame bytes

/-- The encoder: the words of an instruction (R70, R72 to R75, R88). A REG_READ carries no data value; the encoder
leaves it 0. -/
def encode : Instr → Words
  | .edcCompute bytes stop => .command 0x01 (.bytesEnd bytes stop)
  | .edcLength => .command 0x02 .none
  | .apduEncode a => .command 0x10 (.apdu a.cla.toNat a.ins.toNat a.p1.toNat a.p2.toNat a.data a.ne)
  | .apduDecode bytes => .command 0x11 (.bytes bytes)
  | .rapduEncode r => .command 0x12 (.rapdu r.body r.sw1.toNat r.sw2.toNat)
  | .rapduDecode bytes => .command 0x13 (.bytes bytes)
  | .apduChain a seg => .command 0x14 (.apduSeg a.cla.toNat a.ins.toNat a.p1.toNat a.p2.toNat a.data a.ne seg)
  | .frameBuildI seq chaining inf => .command 0x20 (.frameI seq.toNat chaining.toNat inf)
  | .frameBuildR n => .command 0x21 (.ackseq n.toNat)
  | .frameParse bytes => .command 0x22 (.bytes bytes)
  | .connect => .command 0x30 .none
  | .transceive req => .command 0x31 (.bytes req)
  | .disconnect => .command 0x32 .none
  | .regRead idx => .regPort (0#8 ++ idx) 0
  | .regWrite idx value => .regPort (0x80#8 ++ idx) value
  | .pcbI nad seq chaining low inf => .frame (frameBytes nad (pcbOfI seq chaining low) inf)
  | .pcbS nad low inf => .frame (frameBytes nad (pcbOfS low) inf)
  | .pcbR nad bit5 seq mid error => .frame (frameBytes nad (pcbOfR bit5 seq mid error) [])

/-- The operand record of zeros and empty sequences that an opcode takes (used for words of the opcode table, which
give operands no bits). -/
def Opcode.zeroOperands : Opcode → Operands
  | .edcCompute => .bytesEnd [] 0
  | .edcLength => .none
  | .apduEncode => .apdu 0 0 0 0 [] 0
  | .apduDecode => .bytes []
  | .rapduEncode => .rapdu [] 0 0
  | .rapduDecode => .bytes []
  | .apduChain => .apduSeg 0 0 0 0 [] 0 0
  | .frameBuildI => .frameI 0 0 []
  | .frameBuildR => .ackseq 0
  | .frameParse => .bytes []
  | .connect => .none
  | .transceive => .bytes []
  | .disconnect => .none

/-- The words a number of the opcode table stands for: 16 bits are a register port word with data 0; 8 bits are a command
opcode with operands of zeros where R70 defines the opcode, else the PCB of a received block with NAD 0, no INF and its
LRC (log entry 9). -/
def wordsOfTable (nbits w : Nat) : Option Words :=
  if nbits = 16 then some (.regPort (BitVec.ofNat 16 w) 0)
  else if nbits = 8 then
    match opcodeOf (BitVec.ofNat 8 w) with
    | some c => some (.command (BitVec.ofNat 8 w) c.zeroOperands)
    | none => some (.frame (frameBytes 0 (BitVec.ofNat 8 w) []))
  else none

/-- The instruction the decoder reads from a word of the opcode table. -/
def decodeTableWord (nbits w : Nat) : Option Instr :=
  match wordsOfTable nbits w with
  | some x =>
    match decode x with
    | .ok i => some i
    | .error _ => none
  | none => none

end Sys2Proof
end

