-- ==== Sys2Proof/Machine/State.lean ====
section
/-! DEFINITION. The state of the block (spec 10_state R20 to R44), its inputs and outputs, the reasons a step can stop, and
the state after reset (R39). The block has no memory, no general registers and no program counter (R20, R21, R50). -/

namespace Sys2Proof.Machine

/-- The opaque detail of a transport error (R8 `TransportErr`, D40, R213). How many values the type has is a free value,
but that it has one, and nothing in the model reads them (log entry 7). -/
structure TransportErr where
  index : Nat
  isDetail : Config.isErrDetail index = true
  deriving DecidableEq, Repr

/-- `PHASE`: which step of a command the block is at (R29). -/
inductive Phase where
  /-- No command in progress. -/
  | idle
  /-- CONNECT waits for the answer to `PowerOn()`. -/
  | cPower
  /-- CONNECT waits for the echo of the PPS request. -/
  | cPps
  /-- TRANSCEIVE waits for the reply to an I-block fragment. -/
  | tSend
  /-- TRANSCEIVE waits for the reply to an R-block acknowledgement. -/
  | tRecv
  deriving DecidableEq, Repr

/-- A request on the transport port (R34). -/
inductive Request where
  | powerOn
  | exchange (b : Bytes)
  deriving DecidableEq, Repr

/-- What the transport answers (R34): `powered` is the `Ok` of `PowerOn()`, `replied r` the `Ok(r)` of an `Exchange`,
`err d` the `Err(d)` of either. -/
inductive Answer where
  | powered
  | replied (r : Bytes)
  | err (d : TransportErr)
  deriving DecidableEq, Repr

/-- The next thing that can happen at the block's ports (R34, R35, R37, R38). -/
inductive Input where
  /-- The host issues a command. -/
  | command (op : Byte) (operands : Operands)
  /-- The host issues a register port word, with the data value of a write. -/
  | regPort (w : BitVec 16) (data : Byte)
  /-- The host asserts reset. -/
  | reset
  /-- The transport answers the request with this number. -/
  | answer (request : Nat) (a : Answer)
  deriving DecidableEq, Repr

/-- The status of a result record (R36). -/
inductive Status where
  | ok
  | error
  deriving DecidableEq, Repr

/-- The result record of a command (R36). -/
structure ResultRecord where
  status : Status
  code : Byte
  detail : Option TransportErr
  value : Option Value
  deriving DecidableEq, Repr

/-- An event of the trace (R44). -/
inductive Event where
  | cmd (op : Byte) (operands : Operands)
  | powerOn
  | tx (b : Bytes)
  | rx (r : Bytes)
  | terr (d : TransportErr)
  | sblock (pcb : Byte) (inf : Bytes)
  | result (status : Status) (code : Byte) (value : Option Value)
  | reset
  deriving DecidableEq, Repr

/-- Why the block has no step. No instruction raises one of these: `step` does, when nothing is at the block's ports. -/
inductive Fault where
  /-- Raised by the fetch when the block is IDLE and no input is pending: it waits for the host (R281). Safe: the model
  stops where the hardware waits. -/
  | awaitingHost
  /-- Raised by the fetch when a command is in progress and no input is pending: the transport has not answered, and no
  timeout ends the wait (R212, R289). Safe: the model stops where the hardware waits. -/
  | awaitingTransport
  deriving DecidableEq, Repr

/-- Why an instruction is given no meaning. -/
inductive Refusal where
  /-- Raised by an arm of `exec` for an instruction that has no meaning yet; no arm raises it now. Safe: the model stops
  where the hardware goes on. -/
  | notModelled (mnemonic : String)
  deriving DecidableEq, Repr

/-- Everything the spec gives the block (R39), the outputs of its ports, and the inputs not yet taken. -/
structure State where
  /-- `STATUS.CONN` (R24). -/
  conn : Bool
  /-- `STATUS.BUSY` (R26). -/
  busy : Bool
  /-- `STATUS.SEQ`, the sequence counter (R25, R181). -/
  seq : Bit
  /-- `ERR`, the error code of the last command that completed (R27). -/
  err : Byte
  /-- `CFG.EDC_TYPE` (R28). -/
  edcType : EdcType
  /-- `PHASE` (R29). -/
  phase : Phase
  /-- `REQ`, the latched request of a TRANSCEIVE (R31). -/
  req : Bytes
  /-- `OFF`, how many request bytes are in sent I-blocks (R31). -/
  off : Nat
  /-- `RSP`, the response bytes so far (R31). -/
  rsp : Bytes
  /-- `RXSEQ`, the sequence bit of the last I-block received (R31). -/
  rxseq : Bit
  /-- The transport request that waits for its answer, with its number (R34, R39). -/
  outstanding : Option (Nat × Request)
  /-- MODEL: the number the next transport request gets (R280, D27; log entry 2). -/
  reqCount : Nat
  /-- `AUTO_NEG`, the transport's constant capability flag, which no step writes (R8, R34; log entry 5). -/
  autoNeg : Bool
  /-- `HOSTFAULT`, the mark of a host that broke the interface's rules (R43). -/
  hostFault : Bool
  /-- The event trace, oldest first (R44). -/
  trace : List Event
  /-- The result records delivered at the command port, oldest first (R36; log entry 4). -/
  results : List ResultRecord
  /-- The values REG_READ has delivered at the register port, oldest first (R37, R230; log entry 4). -/
  regReads : List Byte
  /-- MODEL: what will happen at the ports, in order (R6; log entry 1). -/
  pending : List Input
  deriving DecidableEq, Repr

/-- The block right after reset, with nothing at its ports (R39, R280, R281). -/
def State.reset : State where
  conn := false
  busy := false
  seq := 0
  err := 0x00
  edcType := .lrc
  phase := .idle
  req := []
  off := 0
  rsp := []
  rxseq := 0
  outstanding := none
  reqCount := 0
  autoNeg := Config.autoNeg
  hostFault := false
  trace := []
  results := []
  regReads := []
  pending := []

end Sys2Proof.Machine
end

