-- ==== Sys2Proof/Machine/Flags.lean ====
section
/-! DEFINITION. The register images: STATUS, ERR codes, CFG and PHASE as the register port sees them (spec 10_state R22 to
R32, 60_exceptions R250). The block has no other flags (R32). -/

namespace Sys2Proof.Machine

/-- The value of `ERR` and of a result's `code` for an error (R250). -/
def errCode : ErrCode → Byte
  | .encEmptyRequest => 0x10
  | .encPayloadTooLong => 0x11
  | .encApduField => 0x12
  | .encApduDecode => 0x13
  | .encBadOperand => 0x14
  | .encBadOpcode => 0x15
  | .frmChecksum => 0x20
  | .frmUnknownKind => 0x21
  | .frmRNonempty => 0x22
  | .frmTruncated => 0x23
  | .frmRErrorUnmapped => 0x24
  | .frmLenReserved => 0x25
  | .protoUnderflow => 0x30
  | .protoExpectedIblock => 0x31
  | .protoREdcError => 0x32
  | .protoROtherError => 0x33
  | .protoNoResponse => 0x34
  | .protoRespOverflow => 0x35
  | .connPpsMismatch => 0x40
  | .connAlreadyConnected => 0x41
  | .connNotConnected => 0x42
  | .capCrcUnsupported => 0x50
  | .transport => 0x60

/-- The code of success, `NONE` (R250). -/
def okCode : Byte := 0x00

/-- A truth value as a byte, 1 or 0. -/
def flagByte (b : Bool) : Byte := if b then 1 else 0

/-- `STATUS`: CONN in bit 0, BUSY in bit 1, SEQ in bit 2, bits 7:3 zero (R23, R230). -/
def statusByte (s : State) : Byte :=
  flagByte s.conn ||| (flagByte s.busy <<< 1) ||| (s.seq.zeroExtend 8 <<< 2)

/-- `CFG`: EDC_TYPE in bit 0, bits 7:1 zero (R28). -/
def cfgByte (t : EdcType) : Byte :=
  match t with
  | .lrc => 0
  | .crc => 1

/-- The EDC selection a value written to `CFG` makes: bit 0, the others ignored (R28, R231). -/
def edcTypeOfCfg (v : Byte) : EdcType := if v.extractLsb' 0 1 = 0 then .lrc else .crc

/-- The value of `PHASE` (R29). -/
def phaseByte : Phase → Byte
  | .idle => 0
  | .cPower => 1
  | .cPps => 2
  | .tSend => 3
  | .tRecv => 4

/-- What a register port read of an index returns (R22, R30, R230). -/
def regValue (idx : Byte) (s : State) : Byte :=
  if idx = 0x00 then statusByte s
  else if idx = 0x01 then s.err
  else if idx = 0x02 then cfgByte s.edcType
  else if idx = 0x03 then phaseByte s.phase
  else 0x00

end Sys2Proof.Machine
end

