-- ==== Sys2Proof/Machine/Ops.lean ====
section
/-! DEFINITION. The shared operations on the state: the trace, accepting and completing a command, raising an error (the
block's one way to take an exception, spec 60_exceptions R262; there is no return from it, R264), issuing a transport
request, and reset (70_reset_and_hazards R280). -/

namespace Sys2Proof.Machine

/-- What executing an instruction answers. -/
abbrev Result := Host.Outcome State Fault Refusal

/-- `Emit(ev)`: append an event to the trace (R11, R44). -/
def emit (e : Event) (s : State) : State := { s with trace := s.trace ++ [e] }

/-- Set the mark `HOSTFAULT` (R43). -/
def markHostFault (s : State) : State := { s with hostFault := true }

/-- Deliver the result record of a command: `ERR`, `BUSY` and `PHASE` are written and the event appended (R36, R44). -/
def deliver (r : ResultRecord) (s : State) : State :=
  { s with
    results := s.results ++ [r]
    trace := s.trace ++ [.result r.status r.code r.value]
    err := r.code
    busy := false
    phase := .idle }

/-- `return v`: complete with status OK (R11, R27, R36). -/
def succeed (v : Option Value) (s : State) : State :=
  deliver { status := .ok, code := okCode, detail := none, value := v } s

/-- `raise E`: complete with status ERROR, the code and no value; CONN, SEQ and CFG stay (R11, R251, R262). -/
def raise (e : ErrCode) (s : State) : State :=
  deliver { status := .error, code := errCode e, detail := none, value := none } s

/-- `raise TRANSPORT(d)`: the detail is copied unchanged into the result record (R36, R213, R251). -/
def raiseTransport (d : TransportErr) (s : State) : State :=
  deliver { status := .error, code := errCode .transport, detail := some d, value := none } s

/-- Complete with a computed value or with the error its computation raised. -/
def finish (r : Except ErrCode Value) (s : State) : State :=
  match r with
  | .ok v => succeed (some v) s
  | .error e => raise e s

/-- The command port: a command is accepted while `BUSY = 0`, with its event; while `BUSY = 1` it is not accepted and
`HOSTFAULT` is set (R35, R44, R285). -/
def acceptCommand (op : Byte) (operands : Operands) (body : State → State) (s : State) : State :=
  if s.busy then markHostFault s else body (emit (.cmd op operands) s)

/-- The event a transport request appends (R44). -/
def requestEvent : Request → Event
  | .powerOn => .powerOn
  | .exchange b => .tx b

/-- Issue a transport request and wait for its answer in a phase (R34, R59, R205). -/
def issue (phase : Phase) (rq : Request) (s : State) : State :=
  { s with
    phase := phase
    outstanding := some (s.reqCount, rq)
    reqCount := s.reqCount + 1
    trace := s.trace ++ [requestEvent rq] }

/-- The answer to the outstanding request has come: no request is outstanding. -/
def clearOutstanding (s : State) : State := { s with outstanding := none }

/-- The reset input: every register at its reset value, the command and the request in progress abandoned, `RESET`
appended, `HOSTFAULT` kept (R38, R280). -/
def resetBlock (s : State) : State :=
  { s with
    conn := false
    busy := false
    seq := 0
    err := 0x00
    edcType := .lrc
    phase := .idle
    req := []
    off := 0
    rsp := []
    rxseq := 0
    outstanding := none
    trace := s.trace ++ [.reset] }

end Sys2Proof.Machine
end

