-- ==== Sys2Proof/Machine/Operands.lean ====
section
/-! DEFINITION. The operand checks the commands share (spec 20_memory R51, 30_encoding R70). -/

namespace Sys2Proof.Machine

/-- A byte sequence the block can hold: at most `BUF_CAP` bytes (R8, R51). -/
def fitsBuffer (b : Bytes) : Bool := Config.withinCap b.length

/-- Go on with a command whose `Bytes` operand fits; a longer one completes with `ENC_BAD_OPERAND` before anything
else (R51, R255). -/
def withBuffer (b : Bytes) (body : State → State) (s : State) : State :=
  if fitsBuffer b then body s else raise .encBadOperand s

end Sys2Proof.Machine
end

