-- ==== Sys2Proof/Machine/ApduCommands.lean ====
section
/-! DEFINITION. The meanings of the five APDU commands (spec 40_apdu_codec R104, R110, R116, R118, R122). -/

namespace Sys2Proof.Machine

/-- The operand record of an APDU (R70). -/
def apduOperands (a : CommandApdu) : Operands :=
  .apdu a.cla.toNat a.ins.toNat a.p1.toNat a.p2.toNat a.data a.ne

/-- The operand record of APDU_CHAIN (R70). -/
def chainOperands (a : CommandApdu) (seg : Nat) : Operands :=
  .apduSeg a.cla.toNat a.ins.toNat a.p1.toNat a.p2.toNat a.data a.ne seg

/-- APDU_ENCODE (R103, R104). -/
def execApduEncode (a : CommandApdu) (s : State) : Result :=
  .next (acceptCommand Opcode.apduEncode.code (apduOperands a)
    (withBuffer a.data (finish ((encodeApdu a).map .bytes))) s)

/-- APDU_DECODE (R110). -/
def execApduDecode (bytes : Bytes) (s : State) : Result :=
  .next (acceptCommand Opcode.apduDecode.code (.bytes bytes)
    (withBuffer bytes (finish ((decodeApdu bytes).map .apdu))) s)

/-- RAPDU_ENCODE: the result may not be longer than `BUF_CAP` (R118). -/
def execRapduEncode (r : ResponseApdu) (s : State) : Result :=
  .next (acceptCommand Opcode.rapduEncode.code (.rapdu r.body r.sw1.toNat r.sw2.toNat)
    (withBuffer r.body (withBuffer (encodeRapdu r) (succeed (some (.bytes (encodeRapdu r)))))) s)

/-- RAPDU_DECODE (R116). -/
def execRapduDecode (bytes : Bytes) (s : State) : Result :=
  .next (acceptCommand Opcode.rapduDecode.code (.bytes bytes)
    (withBuffer bytes (finish ((decodeRapdu bytes).map .rapdu))) s)

/-- APDU_CHAIN (R122). -/
def execApduChain (a : CommandApdu) (seg : Nat) (s : State) : Result :=
  .next (acceptCommand Opcode.apduChain.code (chainOperands a seg)
    (withBuffer a.data (finish ((chainApdu a seg).map .apdus))) s)

end Sys2Proof.Machine
end

