-- ==== Sys2Proof/Machine/ChecksumCommands.lean ====
section
/-! DEFINITION. The meanings of EDC_COMPUTE and EDC_LENGTH (spec 41_checksum R142, R144). -/

namespace Sys2Proof.Machine

/-- The value EDC_COMPUTE returns, or its error: the range check first (R142, R255). -/
def edcValue (t : EdcType) (bytes : Bytes) (stop : Nat) : Except ErrCode Value :=
  if stop > bytes.length then .error .encBadOperand
  else match checksum t bytes stop with
    | .ok edc => .ok (.byte (byteAt edc 0))
    | .error e => .error e

/-- EDC_COMPUTE (R142). -/
def execEdcCompute (bytes : Bytes) (stop : Nat) (s : State) : Result :=
  .next (acceptCommand Opcode.edcCompute.code (.bytesEnd bytes stop)
    (withBuffer bytes (fun s => finish (edcValue s.edcType bytes stop) s)) s)

/-- EDC_LENGTH (R144). -/
def execEdcLength (s : State) : Result :=
  .next (acceptCommand Opcode.edcLength.code .none
    (fun s => succeed (some (.byte (edcLength s.edcType))) s) s)

end Sys2Proof.Machine
end

