-- ==== Sys2Proof/Machine/FrameCommands.lean ====
section
/-! DEFINITION. The meanings of FRAME_BUILD_I, FRAME_BUILD_R and FRAME_PARSE (spec 42_block R152, R157, R168). -/

namespace Sys2Proof.Machine

/-- FRAME_BUILD_I; `SEQ` is neither read nor written (R152). -/
def execFrameBuildI (seq chaining : Bit) (inf : Bytes) (s : State) : Result :=
  .next (acceptCommand Opcode.frameBuildI.code (.frameI seq.toNat chaining.toNat inf)
    (withBuffer inf (fun s => finish ((buildI s.edcType seq chaining inf).map .bytes) s)) s)

/-- FRAME_BUILD_R (R157). -/
def execFrameBuildR (n : Bit) (s : State) : Result :=
  .next (acceptCommand Opcode.frameBuildR.code (.ackseq n.toNat)
    (fun s => finish ((buildR s.edcType n).map .bytes) s) s)

/-- FRAME_PARSE (R168). -/
def execFrameParse (bytes : Bytes) (s : State) : Result :=
  .next (acceptCommand Opcode.frameParse.code (.bytes bytes)
    (withBuffer bytes (fun s => finish ((parseBlock s.edcType bytes).map .block) s)) s)

end Sys2Proof.Machine
end

