-- ==== Sys2Proof/Machine/ProtocolCommands.lean ====
section
/-! DEFINITION. The meanings of CONNECT, TRANSCEIVE and DISCONNECT and the steps that go on when the transport answers
(spec 43_t1_protocol R184, R190 to R200, R205). The retransmission controller has limit 0: no step sends a block again
(R210). -/

namespace Sys2Proof.Machine

/-- `CONN <- 1; SEQ <- 0`, and the command completes (R184). -/
def connected (s : State) : State := succeed none { s with conn := true, seq := 0 }

/-- CONNECT: the IDLE rows of the step table (R184, R205). -/
def execConnect (s : State) : Result :=
  .next (acceptCommand Opcode.connect.code .none
    (fun s =>
      if s.conn then raise .connAlreadyConnected s
      else issue .cPower .powerOn { s with busy := true }) s)

/-- `PowerOn()` answered `Ok`: `AUTO_NEG` is read, and the PPS request sent unless it is set (R184, D22). -/
def powerOnDone (s : State) : State :=
  if s.autoNeg then connected s else issue .cPps (.exchange Config.ppsRequest) s

/-- The echo of the PPS request must be exact (R184). -/
def ppsEcho (r : Bytes) (s : State) : State :=
  if r = Config.ppsRequest then connected s else raise .connPpsMismatch s

/-- Request bytes not yet placed in a sent I-block. -/
def unsent (s : State) : Nat := s.req.length - s.off

/-- The number of request bytes the next fragment carries (R190, R191). -/
def fragmentSize (s : State) : Nat := min Config.fragmentLen (unsent s)

/-- The next fragment as an I-block: the current `SEQ`, and the chaining bit when more bytes follow (R190, R191). -/
def nextFragment (s : State) : Except ErrCode Bytes :=
  buildI s.edcType s.seq (if s.off + fragmentSize s < s.req.length then 1 else 0)
    (slice s.req s.off (s.off + fragmentSize s))

/-- One turn of the send loop: build, toggle `SEQ`, advance `OFF`, send; a failed build changes nothing (R190, R192). -/
def sendFragment (s : State) : State :=
  match nextFragment s with
  | .error e => raise e s
  | .ok f => issue .tSend (.exchange f) { s with seq := s.seq + 1, off := s.off + fragmentSize s }

/-- TRANSCEIVE: its checks in order, then fragment 0 (R190, R205). -/
def execTransceive (req : Bytes) (s : State) : Result :=
  .next (acceptCommand Opcode.transceive.code (.bytes req)
    (withBuffer req (fun s =>
      if req.length = 0 then raise .encEmptyRequest s
      else if s.conn = false then raise .connNotConnected s
      else sendFragment { s with busy := true, req := req, off := 0, rsp := [] })) s)

/-- A reply that lets the send phase go on: the next fragment, or `PROTO_NO_RESPONSE` when it answered the last one
(R193, R194, R197). -/
def proceed (s : State) : State :=
  if s.off < s.req.length then sendFragment s else raise .protoNoResponse s

/-- The receive loop's test: with chaining set the I-block is acknowledged, otherwise `RSP` is returned (R190, R198). -/
def acknowledge (chaining : Bit) (s : State) : State :=
  if chaining = 1 then
    match buildR s.edcType s.rxseq with
    | .error e => raise e s
    | .ok f => issue .tRecv (.exchange f) s
  else succeed (some (.bytes s.rsp)) s

/-- An I-block in the send phase: underflow, or the first block of the response (R195). -/
def firstIBlock (seq chaining : Bit) (inf : Bytes) (s : State) : State :=
  if s.off < s.req.length then raise .protoUnderflow s
  else acknowledge chaining { s with rsp := inf, rxseq := seq }

/-- A further I-block of the response (R196, R198). -/
def furtherIBlock (seq chaining : Bit) (inf : Bytes) (s : State) : State :=
  if Config.withinCap (s.rsp.length + inf.length) then acknowledge chaining { s with rsp := s.rsp ++ inf, rxseq := seq }
  else raise .protoRespOverflow s

/-- An S-block in the send phase is logged and nothing is sent in answer (R193). -/
def sblockReply (pcb : Byte) (inf : Bytes) (s : State) : State := proceed (emit (.sblock pcb inf) s)

/-- An R-block in the send phase (R194); its sequence bit is not compared (R199). -/
def rblockReply (error : RError) (s : State) : State :=
  match error with
  | .noError => proceed s
  | .edcError => raise .protoREdcError s
  | .otherError => raise .protoROtherError s

/-- DISCONNECT (R200). -/
def execDisconnect (s : State) : Result :=
  .next (acceptCommand Opcode.disconnect.code .none
    (fun s => succeed none { s with conn := false, seq := 0 }) s)

end Sys2Proof.Machine
end

