-- ==== Sys2Proof/Machine/ReceivedBlocks.lean ====
section
/-! DEFINITION. The meanings of PCB_I, PCB_S and PCB_R: what a received block does, by the phase the block waits in (spec
30_encoding R73 to R77, 43_t1_protocol R193 to R198, R205). -/

namespace Sys2Proof.Machine

/-- A block that arrives: in T_SEND and T_RECV the given step; as the answer to the PPS request it is no exact echo and
fails the connection (R184); with no exchange to answer it is discarded (R34, log entry 10). -/
def receive (inSend inRecv : State → State) (s : State) : Result :=
  match s.phase with
  | .tSend => .next (inSend s)
  | .tRecv => .next (inRecv s)
  | .cPps => .next (raise .connPpsMismatch s)
  | .idle => .next s
  | .cPower => .next s

/-- A received I-block (R195, R196, R198); neither its NAD, its unnamed bits nor its sequence bit is checked (R167,
R199). -/
def execPcbI (_nad : Byte) (seq chaining : Bit) (_low : BitVec 5) (inf : Bytes) (s : State) : Result :=
  receive (firstIBlock seq chaining inf) (furtherIBlock seq chaining inf) s

/-- A received S-block (R193, R197, R198). -/
def execPcbS (_nad : Byte) (low : BitVec 6) (inf : Bytes) (s : State) : Result :=
  receive (sblockReply (pcbOfS low) inf) (raise .protoExpectedIblock) s

/-- A received R-block (R194, R197, R198). -/
def execPcbR (_nad : Byte) (_bit5 _seq : Bit) (_mid : BitVec 2) (error : RError) (s : State) : Result :=
  receive (rblockReply error) (raise .protoExpectedIblock) s

end Sys2Proof.Machine
end

