-- ==== Sys2Proof/Machine/RegisterPort.lean ====
section
/-! DEFINITION. The meanings of REG_READ and REG_WRITE (spec 44_control R230, R231). They work while `BUSY = 1` and never
write `ERR`. -/

namespace Sys2Proof.Machine

/-- REG_READ: the register's value is delivered at the register port; nothing else changes (R56, R230). -/
def execRegRead (idx : Byte) (s : State) : Result :=
  .next { s with regReads := s.regReads ++ [regValue idx s] }

/-- REG_WRITE: only `CFG` bit 0 is writable, and not while `BUSY = 1` (R231, R286). -/
def execRegWrite (idx value : Byte) (s : State) : Result :=
  if idx = 0x02 then
    if s.busy then .next (markHostFault s) else .next { s with edcType := edcTypeOfCfg value }
  else .next s

end Sys2Proof.Machine
end

