-- ==== Sys2Proof/Machine/Dispatch.lean ====
section
/-! DEFINITION. Which meaning each instruction has. -/

namespace Sys2Proof.Machine

def exec (i : Instr) (s : State) : Host.Outcome State Fault Refusal :=
  match i with
  | .edcCompute bytes stop => Sys2Proof.Machine.execEdcCompute bytes stop s
  | .edcLength => Sys2Proof.Machine.execEdcLength s
  | .apduEncode a => Sys2Proof.Machine.execApduEncode a s
  | .apduDecode bytes => Sys2Proof.Machine.execApduDecode bytes s
  | .rapduEncode r => Sys2Proof.Machine.execRapduEncode r s
  | .rapduDecode bytes => Sys2Proof.Machine.execRapduDecode bytes s
  | .apduChain a seg => Sys2Proof.Machine.execApduChain a seg s
  | .frameBuildI seq chaining inf => Sys2Proof.Machine.execFrameBuildI seq chaining inf s
  | .frameBuildR n => Sys2Proof.Machine.execFrameBuildR n s
  | .frameParse bytes => Sys2Proof.Machine.execFrameParse bytes s
  | .connect => Sys2Proof.Machine.execConnect s
  | .transceive req => Sys2Proof.Machine.execTransceive req s
  | .disconnect => Sys2Proof.Machine.execDisconnect s
  | .regRead idx => Sys2Proof.Machine.execRegRead idx s
  | .regWrite idx value => Sys2Proof.Machine.execRegWrite idx value s
  | .pcbI nad seq chaining low inf => Sys2Proof.Machine.execPcbI nad seq chaining low inf s
  | .pcbS nad low inf => Sys2Proof.Machine.execPcbS nad low inf s
  | .pcbR nad bit5 seq mid error => Sys2Proof.Machine.execPcbR nad bit5 seq mid error s

end Sys2Proof.Machine
end

