-- ==== Sys2Proof/Machine/Ports.lean ====
section
/-! DEFINITION. Taking the next input from the block's ports: a command, a register port word, reset, or the transport's
answer (spec 10_state R34 to R38, 43_t1_protocol R205, 70_reset_and_hazards R280 to R289). -/

namespace Sys2Proof.Machine

/-- What the next input asks for: run an instruction, a step that is complete, or no step. -/
inductive Fetched where
  | run (i : Instr) (s : State)
  | done (s : State)
  | wait (f : Fault)
  deriving DecidableEq, Repr

/-- The error a command completes with when its opcode or operand record is refused (R70, R71, R255); the last two
rejections are no command's. -/
def rejectCode : Reject → ErrCode
  | .reservedOpcode => .encBadOpcode
  | .operandRange => .encBadOperand
  | .operandShape => .encBadOperand
  | .reservedWordBits => .encBadOperand
  | .frame e => e

/-- A command (R35, R70, R71). -/
def takeCommand (op : Byte) (operands : Operands) (s : State) : Fetched :=
  match decodeCommand op operands with
  | .ok i => .run i s
  | .error e => .done (acceptCommand op operands (raise (rejectCode e)) s)

/-- A register port word; one with reserved bits set is ignored and marked (R37, R88, R286). -/
def takeRegPort (w : BitVec 16) (data : Byte) (s : State) : Fetched :=
  match decodeRegPort w data with
  | .ok i => .run i s
  | .error _ => .done (markHostFault s)

/-- A reply while TRANSCEIVE waits: `RX`, then `ParseBlock`, whose errors end the command, then the block's own
meaning (R44, R190, R205, R262). -/
def takeBlock (r : Bytes) (s : State) : Fetched :=
  let s := emit (.rx r) (clearOutstanding s)
  match parseBlock s.edcType r with
  | .ok blk => .run (instrOfBlock blk) s
  | .error e => .done (raise e s)

/-- A transport error while a command waits (R44, R205, R213). -/
def takeError (d : TransportErr) (s : State) : State :=
  raiseTransport d (emit (.terr d) (clearOutstanding s))

/-- The answer to the outstanding request, by phase (R205). An answer that is not of the request's kind cannot be
presented on the typed port and is discarded (R34, log entry 10). -/
def takeAnswer (a : Answer) (s : State) : Fetched :=
  match s.phase, a with
  | .idle, _ => .done s
  | _, .err d => .done (takeError d s)
  | .cPower, .powered => .done (powerOnDone (clearOutstanding s))
  | .cPps, .replied r => .done (ppsEcho r (emit (.rx r) (clearOutstanding s)))
  | .tSend, .replied r => takeBlock r s
  | .tRecv, .replied r => takeBlock r s
  | .cPower, .replied _ => .done s
  | .cPps, .powered => .done s
  | .tSend, .powered => .done s
  | .tRecv, .powered => .done s

/-- Whether the request with this number is the outstanding one; an answer to any other, as one abandoned by reset, is
discarded (R280, D27). -/
def awaits (k : Nat) (s : State) : Bool :=
  match s.outstanding with
  | some (k', _) => k = k'
  | none => false

/-- The next thing the block does with its ports. -/
def fetch (s : State) : Fetched :=
  match s.pending with
  | [] => .wait (if s.busy then .awaitingTransport else .awaitingHost)
  | x :: rest =>
    let s := { s with pending := rest }
    match x with
    | .command op operands => takeCommand op operands s
    | .regPort w data => takeRegPort w data s
    | .reset => .done (resetBlock s)
    | .answer k a => if awaits k s then takeAnswer a s else .done s

/-- The state with an input put before all others. -/
def pushInput (x : Input) (s : State) : State := { s with pending := x :: s.pending }

/-- A state in which a TRANSCEIVE of one byte has sent its only fragment and waits for the reply. -/
def awaitingReply (s : State) : State :=
  { s with
    conn := true
    busy := true
    seq := s.seq + 1
    edcType := .lrc
    phase := .tSend
    req := [0]
    off := 1
    rsp := []
    outstanding := some (s.reqCount, .exchange (frameBytes Config.outNad (pcbOfI s.seq 0 0) [0]))
    reqCount := s.reqCount + 1 }

/-- A received block placed as the transport's answer: to the request a TRANSCEIVE already waits on, else with a
TRANSCEIVE made to wait for it. -/
def placeBlock (b : Bytes) (s : State) : State :=
  match s.phase, s.outstanding with
  | .tSend, some (k, _) => pushInput (.answer k (.replied b)) { s with edcType := .lrc }
  | .tRecv, some (k, _) => pushInput (.answer k (.replied b)) { s with edcType := .lrc }
  | _, _ => pushInput (.answer s.reqCount (.replied b)) (awaitingReply s)

/-- The state with the words of an instruction placed where the next fetch takes them: a command or register word at
the head of the inputs, a received block as the transport's next answer (log entry 9). -/
def placeWords (w : Words) (s : State) : State :=
  match w with
  | .command op operands => pushInput (.command op operands) s
  | .regPort w data => pushInput (.regPort w data) s
  | .frame b => placeBlock b s

end Sys2Proof.Machine
end

