-- ==== Sys2Proof/Machine/Step.lean ====
section
/-! DEFINITION. One step of the block: the next input is taken from its ports, and the instruction it holds is executed
(spec 00_scope R11, 43_t1_protocol R205). -/

namespace Sys2Proof.Machine

/-- One step. -/
def step (s : State) : Host.Outcome State Fault Refusal :=
  match fetch s with
  | .run i s' => exec i s'
  | .done s' => .next s'
  | .wait f => .fault f

/-- The state with a word of the opcode table placed where `step` takes its next instruction. -/
def State.withFetchWord (s : State) (nbits w : Nat) : State :=
  match wordsOfTable nbits w with
  | some x => placeWords x s
  | none => s

end Sys2Proof.Machine
end

