-- ==== Sys2Proof/Machine/Pseudo.lean ====
section
/-! DEFINITION. The two pseudo-commands (spec 30_encoding R90): host-side sequences of commands, each step of which reads
the result record of the command before it. They are no instructions and hold no state of the block. -/

namespace Sys2Proof.Machine

/-- A pseudo-command with its operands (R90). -/
inductive Pseudo where
  | sendApdu (a : CommandApdu)
  | sendChained (a : CommandApdu) (seg : Nat)
  deriving DecidableEq, Repr

/-- Which command of the expansion the host waits on; `rest` are the APDUs still to be sent. -/
inductive PseudoPhase where
  | chaining
  | encoding (rest : List CommandApdu)
  | transceiving (rest : List CommandApdu)
  | decoding (rest : List CommandApdu)
  deriving DecidableEq, Repr

/-- What the host does next. -/
inductive PseudoStep where
  /-- Issue this command and wait for its result. -/
  | issue (i : Instr) (p : PseudoPhase)
  /-- The sequence is complete, with the decoded response of the last APDU. -/
  | done (r : ResponseApdu)
  /-- A command of the sequence completed with this error code: the sequence stops. -/
  | failed (code : Byte)
  /-- A result value that is not the command's (no command delivers one). -/
  | unexpected
  deriving DecidableEq, Repr

/-- The first command of the expansion (R90). -/
def Pseudo.start : Pseudo → PseudoStep
  | .sendApdu a => .issue (.apduEncode a) (.encoding [])
  | .sendChained a seg => .issue (.apduChain a seg) .chaining

/-- The next command of the expansion, after a command that completed OK with this value (R90). -/
def PseudoPhase.continue (p : PseudoPhase) (v : Option Value) : PseudoStep :=
  match p, v with
  | .chaining, some (.apdus (a :: rest)) => .issue (.apduEncode a) (.encoding rest)
  | .encoding rest, some (.bytes c) => .issue (.transceive c) (.transceiving rest)
  | .transceiving rest, some (.bytes r) => .issue (.rapduDecode r) (.decoding rest)
  | .decoding (a :: rest), some (.rapdu _) => .issue (.apduEncode a) (.encoding rest)
  | .decoding [], some (.rapdu r) => .done r
  | _, _ => .unexpected

/-- The host's next act on the result record of the command it waits on: an error stops the sequence (R90). -/
def PseudoPhase.next (p : PseudoPhase) (r : ResultRecord) : PseudoStep :=
  match r.status with
  | .ok => p.continue r.value
  | .error => .failed r.code

end Sys2Proof.Machine
end

