-- ==== Sys2Proof/Machine/Assembler.lean ====
section
/-! DEFINITION. The textual syntax of commands, register port operations and pseudo-commands (spec 30_encoding R89, R90): a
mnemonic and `name=value` operands separated by spaces. It has no effect on the block's behaviour (92 D34). -/

namespace Sys2Proof.Machine

/-- What a line of text stands for: words for a port of the block, or a host-side sequence. -/
inductive Line where
  | words (w : Words)
  | pseudo (p : Pseudo)
  deriving DecidableEq, Repr

/-- The value of a decimal digit. -/
def decDigit (c : Char) : Option Nat :=
  if '0'.toNat ≤ c.toNat ∧ c.toNat ≤ '9'.toNat then some (c.toNat - '0'.toNat) else none

/-- The value of a hexadecimal digit, in either case. -/
def hexDigit (c : Char) : Option Nat :=
  if 'A'.toNat ≤ c.toNat ∧ c.toNat ≤ 'F'.toNat then some (c.toNat - 'A'.toNat + 10)
  else if 'a'.toNat ≤ c.toNat ∧ c.toNat ≤ 'f'.toNat then some (c.toNat - 'a'.toNat + 10)
  else decDigit c

/-- Digits read most significant first onto a value already read. -/
def digitsFrom (digit : Char → Option Nat) (base acc : Nat) : List Char → Option Nat
  | [] => some acc
  | c :: cs =>
    match digit c with
    | some d => digitsFrom digit base (acc * base + d) cs
    | none => none

/-- A number: `0x` and hexadecimal digits, or decimal digits; at least one digit. -/
def readNat : List Char → Option Nat
  | '0' :: 'x' :: c :: cs => digitsFrom hexDigit 16 0 (c :: cs)
  | c :: cs => digitsFrom decDigit 10 0 (c :: cs)
  | [] => none

/-- Run-together hex pairs. -/
def readPairs : List Char → Option Bytes
  | [] => some []
  | [_] => none
  | h :: l :: cs =>
    match hexDigit h, hexDigit l, readPairs cs with
    | some x, some y, some bs => some (BitVec.ofNat 8 (x * 16 + y) :: bs)
    | _, _, _ => none

/-- A `Bytes` operand: hex pairs, or `[]` for the empty sequence. -/
def readBytes : List Char → Option Bytes
  | [] => none
  | ['[', ']'] => some []
  | c :: cs => readPairs (c :: cs)

/-- The words of a line: its runs of characters that are not spaces. -/
def splitSpaces (line : List Char) : List (List Char) :=
  (line.splitOn ' ').filter (fun w => !w.isEmpty)

/-- An operand `name=value`. -/
def readOperand (w : List Char) : Option (List Char × List Char) :=
  match w.span (· ≠ '=') with
  | (name, _ :: value) => some (name, value)
  | (_, []) => none

/-- Every operand of a line. -/
def readOperands : List (List Char) → Option (List (List Char × List Char))
  | [] => some []
  | w :: ws =>
    match readOperand w, readOperands ws with
    | some a, some as => some (a :: as)
    | _, _ => none

/-- The operands' names are of the command's list, none written twice. -/
def namesAllowed (allowed : List String) (args : List (List Char × List Char)) : Bool :=
  args.all (fun a => (allowed.map String.toList).contains a.1) && (args.map Prod.fst).Nodup

/-- A numeric operand that must be written. -/
def natArg (args : List (List Char × List Char)) (name : String) : Option Nat :=
  (args.lookup name.toList).bind readNat

/-- A numeric operand with a default (R89). -/
def natArgD (args : List (List Char × List Char)) (name : String) (default : Nat) : Option Nat :=
  match args.lookup name.toList with
  | none => some default
  | some v => readNat v

/-- A `Bytes` operand that must be written. -/
def bytesArg (args : List (List Char × List Char)) (name : String) : Option Bytes :=
  (args.lookup name.toList).bind readBytes

/-- A `Bytes` operand whose default is `[]` (R89). -/
def bytesArgD (args : List (List Char × List Char)) (name : String) : Option Bytes :=
  match args.lookup name.toList with
  | none => some []
  | some v => readBytes v

/-- A numeric operand that must be written and fit a byte, for the register port word, whose fields are bytes. -/
def byteArg (args : List (List Char × List Char)) (name : String) : Option Byte :=
  (natArg args name).bind (fun n => if n < 256 then some (BitVec.ofNat 8 n) else none)

/-- The operands of a command line, by opcode (R70, R89). -/
def assembleOperands (c : Opcode) (args : List (List Char × List Char)) : Option Operands :=
  let with_ (allowed : List String) (o : Option Operands) := if namesAllowed allowed args then o else none
  match c with
  | .edcCompute => with_ ["bytes", "end"] do
      pure (.bytesEnd (← bytesArg args "bytes") (← natArg args "end"))
  | .edcLength => with_ [] (some .none)
  | .apduEncode => with_ ["cla", "ins", "p1", "p2", "data", "ne"] do
      pure (.apdu (← natArg args "cla") (← natArg args "ins") (← natArg args "p1") (← natArg args "p2")
        (← bytesArgD args "data") (← natArgD args "ne" 0))
  | .apduDecode => with_ ["bytes"] do pure (.bytes (← bytesArg args "bytes"))
  | .rapduEncode => with_ ["body", "sw1", "sw2"] do
      pure (.rapdu (← bytesArg args "body") (← natArg args "sw1") (← natArg args "sw2"))
  | .rapduDecode => with_ ["bytes"] do pure (.bytes (← bytesArg args "bytes"))
  | .apduChain => with_ ["cla", "ins", "p1", "p2", "data", "ne", "seg"] do
      pure (.apduSeg (← natArg args "cla") (← natArg args "ins") (← natArg args "p1") (← natArg args "p2")
        (← bytesArgD args "data") (← natArgD args "ne" 0) (← natArgD args "seg" Config.defaultChainSeg))
  | .frameBuildI => with_ ["seq", "chaining", "inf"] do
      pure (.frameI (← natArg args "seq") (← natArg args "chaining") (← bytesArg args "inf"))
  | .frameBuildR => with_ ["ackseq"] do pure (.ackseq (← natArg args "ackseq"))
  | .frameParse => with_ ["bytes"] do pure (.bytes (← bytesArg args "bytes"))
  | .connect => with_ [] (some .none)
  | .transceive => with_ ["req"] do pure (.bytes (← bytesArg args "req"))
  | .disconnect => with_ [] (some .none)

/-- The mnemonics of the commands (R70). -/
def mnemonicTable : List (String × Opcode) :=
  [("EDC_COMPUTE", .edcCompute), ("EDC_LENGTH", .edcLength), ("APDU_ENCODE", .apduEncode),
   ("APDU_DECODE", .apduDecode), ("RAPDU_ENCODE", .rapduEncode), ("RAPDU_DECODE", .rapduDecode),
   ("APDU_CHAIN", .apduChain), ("FRAME_BUILD_I", .frameBuildI), ("FRAME_BUILD_R", .frameBuildR),
   ("FRAME_PARSE", .frameParse), ("CONNECT", .connect), ("TRANSCEIVE", .transceive), ("DISCONNECT", .disconnect)]

/-- The opcode of a mnemonic. -/
def opcodeOfMnemonic (m : List Char) : Option Opcode :=
  (mnemonicTable.map (fun r => (r.1.toList, r.2))).lookup m

/-- A register port operation's word (R88, R89). -/
def assembleRegPort (m : List Char) (args : List (List Char × List Char)) : Option Words :=
  if m = "REG_READ".toList then
    if namesAllowed ["idx"] args then do pure (.regPort (0#8 ++ (← byteArg args "idx")) 0) else none
  else if m = "REG_WRITE".toList then
    if namesAllowed ["idx", "value"] args then do
      pure (.regPort (0x80#8 ++ (← byteArg args "idx")) (← byteArg args "value")) else none
  else none

/-- The APDU operands of a pseudo-command: typed values, as the source's fields are (R90). -/
def assembleApdu (args : List (List Char × List Char)) : Option CommandApdu := do
  pure ⟨← byteArg args "cla", ← byteArg args "ins", ← byteArg args "p1", ← byteArg args "p2",
    ← bytesArgD args "data", ← natArgD args "ne" 0⟩

/-- A pseudo-command (R90). -/
def assemblePseudo (m : List Char) (args : List (List Char × List Char)) : Option Pseudo :=
  if m = "SEND_APDU".toList then
    if namesAllowed ["cla", "ins", "p1", "p2", "data", "ne"] args then
      (assembleApdu args).map .sendApdu else none
  else if m = "SEND_CHAINED".toList then
    if namesAllowed ["cla", "ins", "p1", "p2", "data", "ne", "seg"] args then do
      pure (.sendChained (← assembleApdu args) (← natArgD args "seg" Config.defaultChainSeg)) else none
  else none

/-- The meaning of a mnemonic with its operands. -/
def assembleMnemonic (m : List Char) (args : List (List Char × List Char)) : Option Line :=
  match opcodeOfMnemonic m with
  | some c => (assembleOperands c args).map (fun o => .words (.command c.code o))
  | none =>
    match assembleRegPort m args with
    | some w => some (.words w)
    | none => (assemblePseudo m args).map .pseudo

/-- A line of text (R89, R90). -/
def assemble (line : List Char) : Option Line :=
  match splitSpaces line with
  | [] => none
  | m :: ws =>
    match readOperands ws with
    | some args => assembleMnemonic m args
    | none => none

end Sys2Proof.Machine
end

