-- ==== Sys2Proof/Safety.lean ====
section
/-! DEFINITION. What counts as a safe run (spec 10_state R43) and the invariant the block's registers keep (R24, R26, R29,
R31, R34, 60_exceptions R250). -/

namespace Sys2Proof

open Sys2Proof.Machine

/-- The premise of every claim about a run: the host has broken no rule of the interface (R43, D26). -/
def NoHostFault (s : State) : Prop := s.hostFault = false

/-- The values `ERR` can hold (R250); `FRM_UNKNOWN_KIND` (0x21) is never raised (R76). -/
def listedCodes : List Byte :=
  [0x00, 0x10, 0x11, 0x12, 0x13, 0x14, 0x15, 0x20, 0x22, 0x23, 0x24, 0x25, 0x30, 0x31, 0x32, 0x33, 0x34, 0x35,
   0x40, 0x41, 0x42, 0x50, 0x60]

/-- The outstanding request is the one the phase waits on (R29, R34, R205). -/
def requestFitsPhase (s : State) : Prop :=
  match s.phase with
  | .idle => s.outstanding = none
  | .cPower => ∃ k, s.outstanding = some (k, .powerOn)
  | .cPps => ∃ k, s.outstanding = some (k, .exchange Config.ppsRequest)
  | .tSend => ∃ k b, s.outstanding = some (k, .exchange b)
  | .tRecv => ∃ k b, s.outstanding = some (k, .exchange b)

/-- While a TRANSCEIVE waits: Connected, LRC selected, a request of 1 to `BUF_CAP` bytes of which `OFF` are in sent
I-blocks, and a response within `BUF_CAP` (R31, R51, R190, R196). -/
structure Transceiving (s : State) : Prop where
  conn : s.conn = true
  edc : s.edcType = .lrc
  reqFits : s.req.length ≤ Config.bufCap
  offPos : 0 < s.off
  offLe : s.off ≤ s.req.length
  rspFits : s.rsp.length ≤ Config.bufCap

/-- The invariant of the block. -/
structure Inv (s : State) : Prop where
  /-- `PHASE = 0` if and only if `BUSY = 0` (R29). -/
  busyIff : s.busy = true ↔ s.phase ≠ .idle
  request : requestFitsPhase s
  /-- Requests are numbered below the next number. -/
  numbered : ∀ k rq, s.outstanding = some (k, rq) → k < s.reqCount
  connecting : s.phase = .cPower ∨ s.phase = .cPps → s.conn = false
  transceiving : s.phase = .tSend ∨ s.phase = .tRecv → Transceiving s
  /-- Every byte of the request has been sent when the receive phase waits (R195, R198). -/
  received : s.phase = .tRecv → s.off = s.req.length
  errListed : s.err ∈ listedCodes

end Sys2Proof
end

