-- ==== Sys2Proof/Certificates/Slice0/Obligations.lean ====
section
/-! DEFINITION. The statements for the provers. `Sys2Proof.Spec` holds what the spec's rules say in their own arithmetic, apart
from the model's functions; each `Obligations.<Name>` is one statement about the model. -/

namespace Sys2Proof.Spec

open Sys2Proof Sys2Proof.Machine

/-! ### Observing an outcome -/

/-- The state with the operation context erased while it is dead: R31 says that its values while `BUSY = 0` are not
observable, so no statement below rests on them. -/
def visible (s : State) : State :=
  if s.busy then s else { s with req := [], off := 0, rsp := [], rxseq := 0 }

/-- The outcome is a next state, equal to `t` but for a dead operation context (R31). -/
def Answers (o : Host.Outcome State Fault Refusal) (t : State) : Prop :=
  ∃ u, o = .next u ∧ visible u = visible t

/-- The events `evs` happen and then the command's result record is delivered (R36, R44). -/
def endsWith (evs : List Event) (r : ResultRecord) (s : State) : State :=
  { s with
    trace := s.trace ++ evs ++ [.result r.status r.code r.value]
    results := s.results ++ [r]
    err := r.code
    busy := false
    phase := .idle }

/-- Completion with status OK and a value (R11, R36). -/
def endsOk (evs : List Event) (v : Option Value) (s : State) : State := endsWith evs ⟨.ok, 0x00, none, v⟩ s

/-- Completion with an error code (R11, R262). -/
def endsErr (evs : List Event) (code : Byte) (s : State) : State := endsWith evs ⟨.error, code, none, none⟩ s

/-- A command is accepted and completes OK in the step that accepts it. -/
def okAfter (op : Byte) (operands : Operands) (v : Option Value) (s : State) : State :=
  endsOk [.cmd op operands] v s

/-- A command is accepted and completes with an error in the step that accepts it. -/
def errAfter (op : Byte) (operands : Operands) (code : Byte) (s : State) : State :=
  endsErr [.cmd op operands] code s

/-- The events `evs` happen, the last of them the request's own, and the block waits for the answer (R205). -/
def requests (evs : List Event) (phase : Phase) (rq : Request) (s : State) : State :=
  { s with
    trace := s.trace ++ evs
    busy := true
    phase := phase
    outstanding := some (s.reqCount, rq)
    reqCount := s.reqCount + 1 }

/-- The operand record of APDU_ENCODE (R70). -/
def apduOps (a : CommandApdu) : Operands :=
  .apdu a.cla.toNat a.ins.toNat a.p1.toNat a.p2.toNat a.data a.ne

/-- The operand record of APDU_CHAIN (R70). -/
def chainOps (a : CommandApdu) (seg : Nat) : Operands :=
  .apduSeg a.cla.toNat a.ins.toNat a.p1.toNat a.p2.toNat a.data a.ne seg

/-! ### Checksum and frames -/

/-- `b[0] ^ b[1] ^ ... ^ b[e-1]` (R140). -/
def xorUpTo (b : Bytes) : Nat → Byte
  | 0 => 0x00
  | e + 1 => xorUpTo b e ^^^ b.getD e 0

/-- NAD 0, PCB, LEN, INF and the LRC of those (R72, R79). -/
def lrcBlock (pcb : Nat) (inf : Bytes) : Bytes :=
  let f := [0x00, BitVec.ofNat 8 pcb, BitVec.ofNat 8 inf.length] ++ inf
  f ++ [xorUpTo f f.length]

/-- An I-block the block builds: sequence in bit 6, chaining in bit 5 (R73). -/
def iBlock (seq chaining : Bit) (inf : Bytes) : Bytes := lrcBlock (seq.toNat * 64 + chaining.toNat * 32) inf

/-- The acknowledgement of an I-block with sequence bit `n`; there are two (R157). -/
def ackBlock (n : Bit) : Bytes := if n = 0 then [0x00, 0x90, 0x00, 0x90] else [0x00, 0x80, 0x00, 0x80]

/-- `[nad, pcb, len(inf)] ++ inf ++ edc` of a block record (R169). -/
def layout : Block → Bytes
  | .i nad pcb inf edc _ _ => [nad, pcb, BitVec.ofNat 8 inf.length] ++ inf ++ edc
  | .s nad pcb inf edc => [nad, pcb, BitVec.ofNat 8 inf.length] ++ inf ++ edc
  | .r nad pcb inf edc _ _ => [nad, pcb, BitVec.ofNat 8 inf.length] ++ inf ++ edc

/-- The error a received sequence raises with the LRC selected, if any: the checks in the order of R160, by the number of
the PCB byte (I-blocks are 0 to 127, R-blocks 128 to 191, S-blocks 192 to 255, R76). -/
def parseError (b : Bytes) : Option Byte :=
  let l := (b.getD 2 0).toNat
  let p := (b.getD 1 0).toNat
  if b.length < 4 then some 0x23
  else if b.length < 4 + l then some 0x23
  else if 4 + l < b.length then some 0x20
  else if b.getD (3 + l) 0 ≠ xorUpTo b (3 + l) then some 0x20
  else if l = 255 then some 0x25
  else if 128 ≤ p ∧ p < 192 ∧ l ≠ 0 then some 0x22
  else if 128 ≤ p ∧ p < 192 ∧ p % 4 = 3 then some 0x24
  else none

/-- The record of an accepted sequence (R160), by the number of the PCB byte. -/
def parsedBlock (b : Bytes) : Block :=
  let nad := b.getD 0 0
  let pcb := b.getD 1 0
  let p := pcb.toNat
  let inf := (b.drop 3).take (b.getD 2 0).toNat
  let edc := b.drop (b.length - 1)
  if p < 128 then .i nad pcb inf edc (BitVec.ofNat 1 (p / 64)) (BitVec.ofNat 1 (p / 32))
  else if p < 192 then
    .r nad pcb [] edc (BitVec.ofNat 1 (p / 16))
      (if p % 4 = 0 then .noError else if p % 4 = 1 then .edcError else .otherError)
  else .s nad pcb inf edc

/-! ### APDUs -/

/-- A valid APDU value (R100). -/
def validApdu (a : CommandApdu) : Prop := a.data.length ≤ 65535 ∧ a.ne ≤ 65536

/-- `n mod 65536` as two bytes, most significant first (R82). -/
def twoBytes (n : Nat) : Bytes := [BitVec.ofNat 8 (n % 65536 / 256), BitVec.ofNat 8 (n % 256)]

/-- The encoding of a valid APDU, form by form as the table of R81 lists them. -/
def apduEncoding (a : CommandApdu) : Bytes :=
  let nc := a.data.length
  let h := [a.cla, a.ins, a.p1, a.p2]
  if nc = 0 ∧ a.ne = 0 then h
  else if nc = 0 ∧ a.ne ≤ 256 then h ++ [BitVec.ofNat 8 (a.ne % 256)]
  else if nc = 0 then h ++ [0x00] ++ twoBytes a.ne
  else if nc ≤ 255 ∧ a.ne = 0 then h ++ [BitVec.ofNat 8 nc] ++ a.data
  else if a.ne = 0 then h ++ [0x00] ++ twoBytes nc ++ a.data
  else if nc ≤ 255 ∧ a.ne ≤ 256 then h ++ [BitVec.ofNat 8 nc] ++ a.data ++ [BitVec.ofNat 8 (a.ne % 256)]
  else h ++ [0x00] ++ twoBytes nc ++ a.data ++ twoBytes a.ne

/-- The length of the encoding, form by form (R105). -/
def apduEncodingLength (a : CommandApdu) : Nat :=
  let nc := a.data.length
  if nc = 0 ∧ a.ne = 0 then 4
  else if nc = 0 ∧ a.ne ≤ 256 then 5
  else if nc = 0 then 7
  else if nc ≤ 255 ∧ a.ne = 0 then 5 + nc
  else if a.ne = 0 then 7 + nc
  else if nc ≤ 255 ∧ a.ne ≤ 256 then 6 + nc
  else 9 + nc

/-- The buffers APDU_DECODE accepts and the APDU each stands for: one constructor per form (R81, R82, R110, R112). -/
inductive ApduBuffer : Bytes → CommandApdu → Prop where
  | case1 (cla ins p1 p2 : Byte) : ApduBuffer [cla, ins, p1, p2] ⟨cla, ins, p1, p2, [], 0⟩
  | case2S (cla ins p1 p2 le : Byte) :
      ApduBuffer [cla, ins, p1, p2, le] ⟨cla, ins, p1, p2, [], if le = 0 then 256 else le.toNat⟩
  | case2E (cla ins p1 p2 hi lo : Byte) :
      ApduBuffer [cla, ins, p1, p2, 0, hi, lo]
        ⟨cla, ins, p1, p2, [], if hi = 0 ∧ lo = 0 then 65536 else hi.toNat * 256 + lo.toNat⟩
  | case3S (cla ins p1 p2 lc : Byte) (data : Bytes) (h : data.length = lc.toNat) (h0 : lc ≠ 0) :
      ApduBuffer ([cla, ins, p1, p2, lc] ++ data) ⟨cla, ins, p1, p2, data, 0⟩
  | case4S (cla ins p1 p2 lc le : Byte) (data : Bytes) (h : data.length = lc.toNat) (h0 : lc ≠ 0) :
      ApduBuffer ([cla, ins, p1, p2, lc] ++ data ++ [le])
        ⟨cla, ins, p1, p2, data, if le = 0 then 256 else le.toNat⟩
  | case3E (cla ins p1 p2 hi lo : Byte) (data : Bytes) (h : data.length = hi.toNat * 256 + lo.toNat)
      (h0 : data ≠ []) : ApduBuffer ([cla, ins, p1, p2, 0, hi, lo] ++ data) ⟨cla, ins, p1, p2, data, 0⟩
  | case4E (cla ins p1 p2 hi lo eh el : Byte) (data : Bytes)
      (h : data.length = hi.toNat * 256 + lo.toNat) (h0 : data ≠ []) :
      ApduBuffer ([cla, ins, p1, p2, 0, hi, lo] ++ data ++ [eh, el])
        ⟨cla, ins, p1, p2, data, if eh = 0 ∧ el = 0 then 65536 else eh.toNat * 256 + el.toNat⟩

/-- `ceil(a / b)` for `b > 0` (R10). -/
def ceilOf (a b : Nat) : Nat := a / b + (if a % b = 0 then 0 else 1)

/-- Segment `i` of `k` (R122). -/
def chainPart (a : CommandApdu) (s k i : Nat) : CommandApdu :=
  { a with
    cla := if i + 1 < k then a.cla ||| 0x10 else a.cla
    data := (a.data.drop (i * s)).take s
    ne := if i + 1 < k then 0 else a.ne }

/-- APDU_CHAIN's result for a legal segment length (R122). -/
def chainOf (a : CommandApdu) (s : Nat) : List CommandApdu :=
  if a.data.length ≤ s then [a]
  else (List.range (ceilOf a.data.length s)).map (chainPart a s (ceilOf a.data.length s))

/-! ### Commands and their operands -/

/-- The opcodes of R70. -/
def definedOpcodes : List Byte :=
  [0x01, 0x02, 0x10, 0x11, 0x12, 0x13, 0x14, 0x20, 0x21, 0x22, 0x30, 0x31, 0x32]

/-- A command whose `byte` and `bit` operands are not all in range (R70). -/
def OutOfRange : Byte → Operands → Prop
  | op, .apdu cla ins p1 p2 _ _ => op = 0x10 ∧ (256 ≤ cla ∨ 256 ≤ ins ∨ 256 ≤ p1 ∨ 256 ≤ p2)
  | op, .rapdu _ sw1 sw2 => op = 0x12 ∧ (256 ≤ sw1 ∨ 256 ≤ sw2)
  | op, .apduSeg cla ins p1 p2 _ _ _ => op = 0x14 ∧ (256 ≤ cla ∨ 256 ≤ ins ∨ 256 ≤ p1 ∨ 256 ≤ p2)
  | op, .frameI seq chaining _ => op = 0x20 ∧ (2 ≤ seq ∨ 2 ≤ chaining)
  | op, .ackseq n => op = 0x21 ∧ 2 ≤ n
  | _, .none => False
  | _, .bytesEnd _ _ => False
  | _, .bytes _ => False

/-- The `Bytes` operand of a command, with the words it arrives as (R70). -/
def bytesOperand : Instr → Option (Bytes × Byte × Operands)
  | .edcCompute bytes stop => some (bytes, 0x01, .bytesEnd bytes stop)
  | .edcLength => none
  | .apduEncode a => some (a.data, 0x10, apduOps a)
  | .apduDecode bytes => some (bytes, 0x11, .bytes bytes)
  | .rapduEncode r => some (r.body, 0x12, .rapdu r.body r.sw1.toNat r.sw2.toNat)
  | .rapduDecode bytes => some (bytes, 0x13, .bytes bytes)
  | .apduChain a seg => some (a.data, 0x14, chainOps a seg)
  | .frameBuildI seq chaining inf => some (inf, 0x20, .frameI seq.toNat chaining.toNat inf)
  | .frameBuildR _ => none
  | .frameParse bytes => some (bytes, 0x22, .bytes bytes)
  | .connect => none
  | .transceive req => some (req, 0x31, .bytes req)
  | .disconnect => none
  | .regRead _ => none
  | .regWrite _ _ => none
  | .pcbI _ _ _ _ _ => none
  | .pcbS _ _ _ => none
  | .pcbR _ _ _ _ _ => none

/-- The commands that complete in the step that accepts them and use no transport (40, 41 and 42). -/
def computes : Instr → Bool
  | .edcCompute _ _ => true
  | .edcLength => true
  | .apduEncode _ => true
  | .apduDecode _ => true
  | .rapduEncode _ => true
  | .rapduDecode _ => true
  | .apduChain _ _ => true
  | .frameBuildI _ _ _ => true
  | .frameBuildR _ => true
  | .frameParse _ => true
  | .connect => false
  | .transceive _ => false
  | .disconnect => false
  | .regRead _ => false
  | .regWrite _ _ => false
  | .pcbI _ _ _ _ _ => false
  | .pcbS _ _ _ => false
  | .pcbR _ _ _ _ _ => false

/-! ### The protocol -/

/-- The request bytes of the next fragment: up to 254 (R190, R191). -/
def fragmentBytes (s : State) : Bytes := (s.req.drop s.off).take 254

/-- The next fragment as an I-block: the current `SEQ`, chaining 1 exactly when bytes remain after it (R190, R191). -/
def fragmentBlock (s : State) : Bytes :=
  iBlock s.seq (if s.off + 254 < s.req.length then 1 else 0) (fragmentBytes s)

/-- The events `evs` happen and then the next fragment is built, `SEQ` toggled and the fragment sent (R190, R192). -/
def sendsFragment (evs : List Event) (s : State) : State :=
  { s with
    trace := s.trace ++ evs ++ [.tx (fragmentBlock s)]
    busy := true
    phase := .tSend
    seq := s.seq + 1
    off := s.off + (fragmentBytes s).length
    outstanding := some (s.reqCount, .exchange (fragmentBlock s))
    reqCount := s.reqCount + 1 }

/-- What a TRANSCEIVE does when the response so far is `rsp` and the last I-block received has these bits (R198). -/
def receives (rsp : Bytes) (seq chaining : Bit) (s : State) : State :=
  if chaining = 1 then
    requests [.tx (ackBlock seq)] .tRecv (.exchange (ackBlock seq)) { s with rsp := rsp, rxseq := seq }
  else endsOk [] (some (.bytes rsp)) s

/-- The number of fragments of a request (R191). -/
def fragmentCount (req : Bytes) : Nat := ceilOf req.length 254

/-- The I-block that carries fragment `i` of a request when the first fragment carries sequence bit `s` (R191, R202). -/
def fragmentOf (req : Bytes) (s : Bit) (i : Nat) : Bytes :=
  iBlock (s + BitVec.ofNat 1 i) (if i + 1 < fragmentCount req then 1 else 0) ((req.drop (254 * i)).take 254)

/-- Answers of the transport to the requests numbered from `k` on. -/
def answersFrom (k : Nat) : List Bytes → List Input
  | [] => []
  | r :: rs => .answer k (.replied r) :: answersFrom (k + 1) rs

/-- The blocks a list of events sends. -/
def sentBlocks : List Event → List Bytes
  | [] => []
  | .tx b :: es => b :: sentBlocks es
  | _ :: es => sentBlocks es

/-! ### The transport's error detail -/

/-- An event with the error detail it carries replaced. -/
def mapEvent (f : TransportErr → TransportErr) : Event → Event
  | .terr d => .terr (f d)
  | .cmd op operands => .cmd op operands
  | .powerOn => .powerOn
  | .tx b => .tx b
  | .rx r => .rx r
  | .sblock pcb inf => .sblock pcb inf
  | .result status code value => .result status code value
  | .reset => .reset

/-- An answer with the error detail it carries replaced. -/
def mapAnswer (f : TransportErr → TransportErr) : Answer → Answer
  | .powered => .powered
  | .replied r => .replied r
  | .err d => .err (f d)

/-- An input with the error detail it carries replaced. -/
def mapInput (f : TransportErr → TransportErr) : Input → Input
  | .command op operands => .command op operands
  | .regPort w data => .regPort w data
  | .reset => .reset
  | .answer k a => .answer k (mapAnswer f a)

/-- A state with every error detail in it replaced. -/
def mapDetail (f : TransportErr → TransportErr) (s : State) : State :=
  { s with
    trace := s.trace.map (mapEvent f)
    results := s.results.map (fun r => { r with detail := r.detail.map f })
    pending := s.pending.map (mapInput f) }

end Sys2Proof.Spec

open Sys2Proof Sys2Proof.Machine Sys2Proof.Spec

/-! ## Encodings -/

/-- Encoding and then decoding a well-formed instruction gives it back: no bit of an encoding is dropped (R70, R73 to R75,
R88). -/
def Obligations.DecodeOfEncodeIsIdentity : Prop :=
  ∀ i : Instr, i.wf = true → decode (encode i) = .ok i

/-- Every command word the decoder accepts is the encoding of what it was decoded to (R70). -/
def Obligations.EncodeOfDecodedCommandIsIdentity : Prop :=
  ∀ (op : Byte) (operands : Operands) (i : Instr), decodeCommand op operands = .ok i →
    encode i = .command op operands ∧ i.wf = true

/-- R169: the fields of an accepted block laid out again give the received bytes, its PCB byte among them, and the
instruction it is encodes to them. -/
def Obligations.ReserialisedBlockIsTheReceivedBytes : Prop :=
  ∀ (t : EdcType) (b : Bytes) (blk : Block), parseBlock t b = .ok blk →
    layout blk = b ∧ encode (instrOfBlock blk) = .frame b ∧ (instrOfBlock blk).wf = true

/-- R170: the parser gives back what the builders were given. -/
def Obligations.ParseOfBuiltBlockGivesItsFields : Prop :=
  (∀ (seq ch : Bit) (inf : Bytes), inf.length ≤ 254 →
    ∃ b pcb edc, buildI .lrc seq ch inf = .ok b ∧ parseBlock .lrc b = .ok (.i 0x00 pcb inf edc seq ch)) ∧
  (∀ n : Bit, ∃ b pcb edc, buildR .lrc n = .ok b ∧
    parseBlock .lrc b = .ok (.r 0x00 pcb [] edc (n + 1) .noError))

/-- R76: the kind of a block by the number of its PCB byte; the three kinds cover every PCB and `FRM_UNKNOWN_KIND` is
never raised. -/
def Obligations.EveryPcbHasOneKind : Prop :=
  (∀ p : Byte, kindOf p =
    if p.toNat < 0x80 then .i else if p.toNat < 0xC0 then .r else .s) ∧
  (∀ (t : EdcType) (b : Bytes), parseBlock t b ≠ .error .frmUnknownKind)

/-- Words written out from the tables of R70, R88, R73 to R75 decode to the instructions they stand for. -/
def Obligations.WordsOfTheTablesDecode : Prop :=
  decode (.command 0x01 (.bytesEnd [0xFF, 0x01] 2)) = .ok (.edcCompute [0xFF, 0x01] 2) ∧
  decode (.command 0x10 (.apdu 1 2 3 4 [0x01] 5)) = .ok (.apduEncode ⟨0x01, 0x02, 0x03, 0x04, [0x01], 5⟩) ∧
  decode (.command 0x20 (.frameI 1 0 [0xAA])) = .ok (.frameBuildI 1 0 [0xAA]) ∧
  decode (.command 0x31 (.bytes [0x00, 0xA4])) = .ok (.transceive [0x00, 0xA4]) ∧
  decode (.regPort 0x0003 0x00) = .ok (.regRead 0x03) ∧
  decode (.regPort 0x8002 0xFF) = .ok (.regWrite 0x02 0xFF) ∧
  decode (.regPort 0x0100 0x00) = .error .reservedWordBits ∧
  decode (.frame [0x01, 0x7F, 0x00, 0x7E]) = .ok (.pcbI 0x01 1 1 0x1F []) ∧
  decode (.frame [0x00, 0xC3, 0x01, 0x01, 0xC3]) = .ok (.pcbS 0x00 0x03 [0x01]) ∧
  decode (.frame [0x00, 0xBC, 0x00, 0xBC]) = .ok (.pcbR 0x00 1 1 3 .noError)

/-! ## The step and the ports -/

/-- A step runs the decoded instruction: a command at the head of the inputs; a register port word, whatever `BUSY` is
(R37); and a received block that answers the exchange a TRANSCEIVE waits on, after its `RX` event and with no request
outstanding (R44, R205). -/
def Obligations.StepExecutesDecodedInstruction : Prop :=
  (∀ (s : State) (op : Byte) (operands : Operands) (rest : List Input) (i : Instr),
    s.pending = .command op operands :: rest → decode (.command op operands) = .ok i →
    step s = exec i { s with pending := rest }) ∧
  (∀ (s : State) (w : BitVec 16) (data : Byte) (rest : List Input) (i : Instr),
    s.pending = .regPort w data :: rest → decode (.regPort w data) = .ok i →
    step s = exec i { s with pending := rest }) ∧
  (∀ (s : State) (k : Nat) (rq : Request) (r : Bytes) (rest : List Input) (i : Instr),
    s.pending = .answer k (.replied r) :: rest → s.outstanding = some (k, rq) →
    (s.phase = .tSend ∨ s.phase = .tRecv) → s.edcType = .lrc → decode (.frame r) = .ok i →
    step s = exec i { s with pending := rest, outstanding := none, trace := s.trace ++ [.rx r] })

/-- A reply that `ParseBlock` refuses ends the TRANSCEIVE with the code of the first failing check (R160, R210, R255,
R262). -/
def Obligations.RefusedReplyEndsTransceive : Prop :=
  ∀ (s : State) (k : Nat) (rq : Request) (r : Bytes) (rest : List Input) (code : Byte),
    s.pending = .answer k (.replied r) :: rest → s.outstanding = some (k, rq) →
    (s.phase = .tSend ∨ s.phase = .tRecv) → s.edcType = .lrc → parseError r = some code →
    Answers (step s) (endsErr [.rx r] code { s with pending := rest, outstanding := none })

/-- R71: a reserved opcode completes at once with `ENC_BAD_OPCODE` and changes no other state. -/
def Obligations.ReservedOpcodeCompletesWithError : Prop :=
  ∀ (s : State) (op : Byte) (operands : Operands) (rest : List Input),
    s.pending = .command op operands :: rest → s.busy = false → op ∉ definedOpcodes →
    ∃ evs, Answers (step s) (endsErr evs 0x15 { s with pending := rest })

/-- R70: a `bit` or `byte` operand outside its declared range completes with `ENC_BAD_OPERAND` before any other check.
That the command counts as accepted, with its `CMD` event, is the model's choice (log entry 6). -/
def Obligations.OperandOutsideDeclaredRangeIsRefused : Prop :=
  ∀ (s : State) (op : Byte) (operands : Operands) (rest : List Input),
    s.pending = .command op operands :: rest → s.busy = false → OutOfRange op operands →
    Answers (step s) (errAfter op operands 0x14 { s with pending := rest })

/-- R51: a `Bytes` operand longer than `BUF_CAP` completes with `ENC_BAD_OPERAND` before anything else. -/
def Obligations.OverlongBytesOperandIsRefused : Prop :=
  ∀ (s : State) (i : Instr) (b : Bytes) (op : Byte) (operands : Operands),
    bytesOperand i = some (b, op, operands) → s.busy = false → Config.bufCap < b.length →
    Answers (exec i s) (errAfter op operands 0x14 s)

/-- R285: a command issued while `BUSY = 1`, whatever its opcode and operands, sets `HOSTFAULT` and is not accepted; the
command in progress goes on. -/
def Obligations.CommandWhileBusyIsHostFault : Prop :=
  ∀ (s : State) (op : Byte) (operands : Operands) (rest : List Input),
    s.pending = .command op operands :: rest → s.busy = true →
    step s = .next { s with pending := rest, hostFault := true }

/-- R286: a register port word with bits 14:8 not all 0, and a write to `CFG` while `BUSY = 1`, set `HOSTFAULT` and are
ignored. -/
def Obligations.RegisterPortViolationIsHostFault : Prop :=
  ∀ (s : State) (w : BitVec 16) (data : Byte) (rest : List Input), s.pending = .regPort w data :: rest →
    (w.toNat / 256 % 128 ≠ 0 ∨ (w = 0x8002 ∧ s.busy = true)) →
    step s = .next { s with pending := rest, hostFault := true }

/-- R38, R280: reset puts the block in its reset state in one step, whatever it is doing; `RESET` is appended to the trace
and `HOSTFAULT` stays. Two clauses are the model's choice and no rule's: that the number of the next request stays
(`reqCount`, log entry 2), and that the delivered outputs stay (`results` and `regReads`, log entry 4). -/
def Obligations.ResetInputRestoresResetState : Prop :=
  ∀ (s : State) (rest : List Input), s.pending = .reset :: rest →
    ∃ t, step s = .next t ∧ t.conn = false ∧ t.busy = false ∧ t.seq = 0 ∧ t.err = 0x00 ∧ t.edcType = .lrc ∧
      t.phase = .idle ∧ t.outstanding = none ∧ t.trace = s.trace ++ [.reset] ∧ t.hostFault = s.hostFault ∧
      t.results = s.results ∧ t.regReads = s.regReads ∧ t.autoNeg = s.autoNeg ∧ t.reqCount = s.reqCount ∧
      t.pending = rest

/-- R280, D27: an answer to a request that reset abandoned, however much later it comes, is discarded. That the model
knows it by the request's number is its own choice (log entry 2). -/
def Obligations.AnswerToAbandonedRequestIsDiscarded : Prop :=
  ∀ (s t u : State) (k n : Nat) (rq : Request) (a : Answer) (before rest : List Input),
    Inv s → s.outstanding = some (k, rq) → s.pending = .reset :: before →
    step s = .next t → core.run n t = .next u → u.pending = .answer k a :: rest →
    step u = .next { u with pending := rest }

/-- R289: with no answer the block has no step, and only an answer or reset lets it move: commands and register port
words leave the command in progress, its request, the registers and the trace as they are. -/
def Obligations.SilentTransportLeavesBlockBusy : Prop :=
  (∀ s : State, s.busy = true → s.pending = [] → step s = .fault .awaitingTransport) ∧
  (∀ (s : State) (x : Input) (rest : List Input), s.busy = true → s.pending = x :: rest → x ≠ .reset →
    (∀ k a, x ≠ .answer k a) →
    ∃ t, step s = .next t ∧
      { t with hostFault := s.hostFault, regReads := s.regReads, pending := s.pending } = s)

/-! ## The register port -/

/-- R230: REG_READ delivers the register's value and changes nothing else, whatever `BUSY` is. -/
def Obligations.RegReadDeliversRegisterValue : Prop :=
  ∀ (s : State) (idx : Byte), exec (.regRead idx) s = .next { s with regReads := s.regReads ++
    [if idx = 0x00 then BitVec.ofNat 8 (s.conn.toNat + 2 * s.busy.toNat + 4 * s.seq.toNat)
     else if idx = 0x01 then s.err
     else if idx = 0x02 then (if s.edcType = .lrc then 0x00 else 0x01)
     else if idx = 0x03 then
       (match s.phase with | .idle => 0x00 | .cPower => 0x01 | .cPps => 0x02 | .tSend => 0x03 | .tRecv => 0x04)
     else 0x00] }

/-- R231: REG_WRITE writes bit 0 of the value to `CFG.EDC_TYPE`; while `BUSY = 1` it is ignored and marked; a write to any
other index is ignored. -/
def Obligations.RegWriteWritesOnlyCfg : Prop :=
  ∀ (s : State) (idx value : Byte),
    exec (.regWrite idx value) s = .next
      (if idx = 0x02 then
        (if s.busy then { s with hostFault := true }
         else { s with edcType := if value.toNat % 2 = 0 then .lrc else .crc })
       else s)

/-! ## The checksum generator -/

/-- R143: the laws of the LRC. -/
def Obligations.LrcLaws : Prop :=
  (∀ (b : Bytes) (e : Nat) (h : e < b.length), lrc b e ^^^ b[e] = lrc b (e + 1)) ∧
  (∀ b c : Bytes, lrc (b ++ c) (b ++ c).length = lrc b b.length ^^^ lrc c c.length) ∧
  (∀ f : Bytes, lrc (f ++ [lrc f f.length]) (f.length + 1) = 0x00) ∧
  (∀ (t : EdcType) (b : Bytes) (blk : Block), parseBlock t b = .ok blk → lrc b b.length = 0x00)

/-- R140, R142: EDC_COMPUTE: the range checks, then the capability, then the exclusive OR of the bytes before `end`. -/
def Obligations.EdcComputeResult : Prop :=
  ∀ (s : State) (bytes : Bytes) (stop : Nat), s.busy = false →
    Answers (exec (.edcCompute bytes stop) s)
      (if Config.bufCap < bytes.length ∨ bytes.length < stop then errAfter 0x01 (.bytesEnd bytes stop) 0x14 s
       else if s.edcType = .crc then errAfter 0x01 (.bytesEnd bytes stop) 0x50 s
       else okAfter 0x01 (.bytesEnd bytes stop) (some (.byte (xorUpTo bytes stop))) s)

/-- R144: EDC_LENGTH. -/
def Obligations.EdcLengthResult : Prop :=
  ∀ s : State, s.busy = false →
    Answers (exec .edcLength s) (okAfter 0x02 .none (some (.byte (if s.edcType = .lrc then 1 else 2))) s)

/-! ## The APDU parser -/

/-- R103, R104: APDU_ENCODE: the operand's length, then the APDU check, then the encoding, in the one of the seven forms
R81 names. -/
def Obligations.ApduEncodeResult : Prop :=
  ∀ (s : State) (a : CommandApdu), s.busy = false →
    Answers (exec (.apduEncode a) s)
      (if Config.bufCap < a.data.length then errAfter 0x10 (apduOps a) 0x14 s
       else if 65535 < a.data.length ∨ 65536 < a.ne then errAfter 0x10 (apduOps a) 0x12 s
       else okAfter 0x10 (apduOps a) (some (.bytes (apduEncoding a))) s)

/-- R105: the lengths of the encodings. -/
def Obligations.ApduEncodingLengths : Prop :=
  ∀ a : CommandApdu, validApdu a →
    ∃ b, encodeApdu a = .ok b ∧ b.length = apduEncodingLength a ∧ b.length ≤ 65544

/-- R110: APDU_DECODE returns the APDU a buffer stands for in whichever of the seven forms it has, and refuses every other
buffer, one that is too long first. -/
def Obligations.ApduDecodeResult : Prop :=
  ∀ (s : State) (b : Bytes), s.busy = false →
    (Config.bufCap < b.length → Answers (exec (.apduDecode b) s) (errAfter 0x11 (.bytes b) 0x14 s)) ∧
    (b.length ≤ Config.bufCap → ∀ a, ApduBuffer b a →
      Answers (exec (.apduDecode b) s) (okAfter 0x11 (.bytes b) (some (.apdu a)) s)) ∧
    (b.length ≤ Config.bufCap → (¬ ∃ a, ApduBuffer b a) →
      Answers (exec (.apduDecode b) s) (errAfter 0x11 (.bytes b) 0x13 s))

/-- R111: APDU_DECODE of the result of APDU_ENCODE of a valid APDU returns that APDU. -/
def Obligations.ApduRoundTrip : Prop :=
  ∀ (s : State) (a : CommandApdu), s.busy = false → validApdu a →
    ∃ b t u, exec (.apduEncode a) s = .next t ∧
      t.results = s.results ++ [⟨.ok, 0x00, none, some (.bytes b)⟩] ∧ t.busy = false ∧
      exec (.apduDecode b) t = .next u ∧ u.results = t.results ++ [⟨.ok, 0x00, none, some (.apdu a)⟩]

/-- R118: RAPDU_ENCODE appends the two status bytes, if the result fits. -/
def Obligations.RapduEncodeResult : Prop :=
  ∀ (s : State) (r : ResponseApdu), s.busy = false →
    Answers (exec (.rapduEncode r) s)
      (if Config.bufCap < r.body.length + 2 then errAfter 0x12 (.rapdu r.body r.sw1.toNat r.sw2.toNat) 0x14 s
       else okAfter 0x12 (.rapdu r.body r.sw1.toNat r.sw2.toNat) (some (.bytes (r.body ++ [r.sw1, r.sw2]))) s)

/-- R116: RAPDU_DECODE takes the last two bytes as the status words; fewer than two bytes fail, and more than `BUF_CAP`. -/
def Obligations.RapduDecodeResult : Prop :=
  (∀ (s : State) (body : Bytes) (sw1 sw2 : Byte), s.busy = false → body.length + 2 ≤ Config.bufCap →
    Answers (exec (.rapduDecode (body ++ [sw1, sw2])) s)
      (okAfter 0x13 (.bytes (body ++ [sw1, sw2])) (some (.rapdu ⟨body, sw1, sw2⟩)) s)) ∧
  (∀ (s : State) (b : Bytes), s.busy = false → b.length < 2 →
    Answers (exec (.rapduDecode b) s) (errAfter 0x13 (.bytes b) 0x13 s)) ∧
  (∀ (s : State) (b : Bytes), s.busy = false → Config.bufCap < b.length →
    Answers (exec (.rapduDecode b) s) (errAfter 0x13 (.bytes b) 0x14 s))

/-- R103, R122: APDU_CHAIN: the operand's length, the APDU check, the segment length check, then the list of segments. -/
def Obligations.ApduChainResult : Prop :=
  ∀ (s : State) (a : CommandApdu) (seg : Nat), s.busy = false →
    Answers (exec (.apduChain a seg) s)
      (if Config.bufCap < a.data.length then errAfter 0x14 (chainOps a seg) 0x14 s
       else if 65535 < a.data.length ∨ 65536 < a.ne then errAfter 0x14 (chainOps a seg) 0x12 s
       else if seg = 0 ∨ 65535 < seg then errAfter 0x14 (chainOps a seg) 0x14 s
       else okAfter 0x14 (chainOps a seg) (some (.apdus (chainOf a seg))) s)

/-- R122: the segments of a chain put together give the data; none is longer than the segment length; all but the last carry
the chaining bit and expect no response; the last keeps the APDU's CLA and `ne`. -/
def Obligations.ChainSegmentsRejoin : Prop :=
  ∀ (a : CommandApdu) (seg : Nat), 0 < seg →
    ∃ init last, chainApdus a seg = init ++ [last] ∧
      (init.map CommandApdu.data).flatten ++ last.data = a.data ∧
      (∀ x ∈ init, x.data.length = seg ∧ x.ne = 0 ∧ x.cla = a.cla ||| 0x10 ∧
        x.ins = a.ins ∧ x.p1 = a.p1 ∧ x.p2 = a.p2) ∧
      last.data.length ≤ seg ∧ (init ≠ [] → last.data ≠ []) ∧
      last.cla = a.cla ∧ last.ins = a.ins ∧ last.p1 = a.p1 ∧ last.p2 = a.p2 ∧ last.ne = a.ne

/-! ## The frame encoder and decoder -/

/-- R150, R151, R152: FRAME_BUILD_I: the operand's length, the INF bound, then the capability, then the I-block. -/
def Obligations.FrameBuildIResult : Prop :=
  ∀ (s : State) (seq chaining : Bit) (inf : Bytes), s.busy = false →
    Answers (exec (.frameBuildI seq chaining inf) s)
      (if Config.bufCap < inf.length then errAfter 0x20 (.frameI seq.toNat chaining.toNat inf) 0x14 s
       else if 254 < inf.length then errAfter 0x20 (.frameI seq.toNat chaining.toNat inf) 0x11 s
       else if s.edcType = .crc then errAfter 0x20 (.frameI seq.toNat chaining.toNat inf) 0x50 s
       else okAfter 0x20 (.frameI seq.toNat chaining.toNat inf) (some (.bytes (iBlock seq chaining inf))) s)

/-- R157: FRAME_BUILD_R has two possible results, or fails with CRC selected. -/
def Obligations.FrameBuildRResult : Prop :=
  ∀ (s : State) (n : Bit), s.busy = false →
    Answers (exec (.frameBuildR n) s)
      (if s.edcType = .crc then errAfter 0x21 (.ackseq n.toNat) 0x50 s
       else okAfter 0x21 (.ackseq n.toNat) (some (.bytes (ackBlock n))) s)

/-- R160, R168: FRAME_PARSE: the operand's length, the capability, then the checks in the order of R160, then the record. -/
def Obligations.FrameParseResult : Prop :=
  ∀ (s : State) (b : Bytes), s.busy = false →
    Answers (exec (.frameParse b) s)
      (if Config.bufCap < b.length then errAfter 0x22 (.bytes b) 0x14 s
       else if s.edcType = .crc then errAfter 0x22 (.bytes b) 0x50 s
       else match parseError b with
         | some code => errAfter 0x22 (.bytes b) code s
         | none => okAfter 0x22 (.bytes b) (some (.block (parsedBlock b))) s)

/-! ## The protocol -/

/-- CONNECT while Connected fails without a request; while Disconnected it issues `PowerOn()` and waits (R184, R205). -/
def Obligations.ConnectPowersOn : Prop :=
  ∀ s : State, s.busy = false →
    Answers (exec .connect s)
      (if s.conn then errAfter 0x30 .none 0x41 s
       else requests [.cmd 0x30 .none, .powerOn] .cPower .powerOn s)

/-- `PowerOn()` answered `Ok`: with `AUTO_NEG` the block is Connected with `SEQ = 0`; without it the PPS request is sent
(R184, R205). -/
def Obligations.PowerOnAnsweredStartsPps : Prop :=
  ∀ (s : State) (k : Nat) (rq : Request) (rest : List Input), s.busy = true → s.phase = .cPower →
    s.outstanding = some (k, rq) → s.pending = .answer k .powered :: rest →
    Answers (step s)
      (if s.autoNeg then
        endsOk [] none { s with pending := rest, outstanding := none, conn := true, seq := 0 }
       else requests [.tx [0xFF, 0x01, 0xFE]] .cPps (.exchange [0xFF, 0x01, 0xFE]) { s with pending := rest })

/-- The echo of the PPS request connects with `SEQ = 0` exactly when it is `FF 01 FE`; every other reply is
`CONN_PPS_MISMATCH` and leaves `CONN` and `SEQ` (R184, R205). -/
def Obligations.PpsEchoMustBeExact : Prop :=
  ∀ (s : State) (k : Nat) (rq : Request) (r : Bytes) (rest : List Input), s.phase = .cPps →
    s.outstanding = some (k, rq) → s.pending = .answer k (.replied r) :: rest →
    Answers (step s)
      (if r = [0xFF, 0x01, 0xFE] then
        endsOk [.rx r] none { s with pending := rest, outstanding := none, conn := true, seq := 0 }
       else endsErr [.rx r] 0x40 { s with pending := rest, outstanding := none })

/-- R213: a transport error while a command waits ends it with `TRANSPORT` and the detail unchanged. -/
def Obligations.TransportErrorPassesThrough : Prop :=
  ∀ (s : State) (k : Nat) (rq : Request) (d : TransportErr) (rest : List Input), s.phase ≠ .idle →
    s.outstanding = some (k, rq) → s.pending = .answer k (.err d) :: rest →
    Answers (step s)
      (endsWith [.terr d] ⟨.error, 0x60, some d, none⟩ { s with pending := rest, outstanding := none })

/-- TRANSCEIVE: a request that is too long, an empty one, then a missing connection, then the capability, are refused with
nothing sent; otherwise the first fragment is sent with the current `SEQ`, which is toggled (R190, R191, R192, R205, R255). -/
def Obligations.TransceiveSendsFirstFragment : Prop :=
  ∀ (s : State) (req : Bytes), s.busy = false →
    Answers (exec (.transceive req) s)
      (if Config.bufCap < req.length then errAfter 0x31 (.bytes req) 0x14 s
       else if req = [] then errAfter 0x31 (.bytes req) 0x10 s
       else if s.conn = false then errAfter 0x31 (.bytes req) 0x42 s
       else if s.edcType = .crc then errAfter 0x31 (.bytes req) 0x50 s
       else sendsFragment [.cmd 0x31 (.bytes req)] { s with req := req, off := 0, rsp := [] })

/-- R193, R197: an S-block in the send phase is recorded, nothing is sent in answer to it, and the next fragment goes out,
or the command fails when it answered the last fragment. -/
def Obligations.SBlockInSendPhaseIsLogged : Prop :=
  ∀ (s : State) (nad : Byte) (low : BitVec 6) (inf : Bytes), s.busy = true → s.phase = .tSend → s.edcType = .lrc →
    Answers (exec (.pcbS nad low inf) s)
      (if s.off < s.req.length then sendsFragment [.sblock (BitVec.ofNat 8 (192 + low.toNat)) inf] s
       else endsErr [.sblock (BitVec.ofNat 8 (192 + low.toNat)) inf] 0x34 s)

/-- R194: an R-block in the send phase: an error ends the command and no fragment follows; `NoError` goes on, or fails when
it answered the last fragment. Its sequence bit and unnamed bits do not matter (R199). -/
def Obligations.RBlockInSendPhase : Prop :=
  ∀ (s : State) (nad : Byte) (bit5 seq : Bit) (mid : BitVec 2) (error : RError),
    s.busy = true → s.phase = .tSend → s.edcType = .lrc →
    Answers (exec (.pcbR nad bit5 seq mid error) s)
      (match error with
       | .edcError => endsErr [] 0x32 s
       | .otherError => endsErr [] 0x33 s
       | .noError => if s.off < s.req.length then sendsFragment [] s else endsErr [] 0x34 s)

/-- R195: an I-block answering a fragment other than the last is an underflow; one answering the last begins the response.
Its NAD, sequence bit and unnamed bits are not checked (R167, R199). -/
def Obligations.IBlockInSendPhase : Prop :=
  ∀ (s : State) (nad : Byte) (seq chaining : Bit) (low : BitVec 5) (inf : Bytes),
    s.busy = true → s.phase = .tSend → s.edcType = .lrc →
    Answers (exec (.pcbI nad seq chaining low inf) s)
      (if s.off < s.req.length then endsErr [] 0x30 s else receives inf seq chaining s)

/-- R196, R198: in the receive phase an I-block is appended and acknowledged while its chaining bit is 1, returned when it
is 0, and refused when the response would be longer than `BUF_CAP`. -/
def Obligations.IBlockInReceivePhase : Prop :=
  ∀ (s : State) (nad : Byte) (seq chaining : Bit) (low : BitVec 5) (inf : Bytes),
    s.busy = true → s.phase = .tRecv → s.edcType = .lrc →
    Answers (exec (.pcbI nad seq chaining low inf) s)
      (if Config.bufCap < s.rsp.length + inf.length then endsErr [] 0x35 s
       else receives (s.rsp ++ inf) seq chaining s)

/-- An R-block or an S-block in the receive phase fails with `PROTO_EXPECTED_IBLOCK` (R198). -/
def Obligations.ReceivePhaseExpectsIBlock : Prop :=
  ∀ (s : State) (nad : Byte) (low : BitVec 6) (inf : Bytes) (bit5 seq : Bit) (mid : BitVec 2) (error : RError),
    s.busy = true → s.phase = .tRecv →
    Answers (exec (.pcbS nad low inf) s) (endsErr [] 0x31 s) ∧
    Answers (exec (.pcbR nad bit5 seq mid error) s) (endsErr [] 0x31 s)

/-- A received block where no exchange of a TRANSCEIVE waits: as the answer to the PPS request it is a mismatch, and
otherwise nothing happens. The second clause is the model's choice (log entry 10): no step of the machine reaches it. -/
def Obligations.ReceivedBlockOutsideTransceive : Prop :=
  ∀ (s : State) (nad : Byte) (seq chaining : Bit) (low : BitVec 5) (inf : Bytes) (low6 : BitVec 6) (bit5 : Bit)
    (mid : BitVec 2) (error : RError) (i : Instr),
    (i = .pcbI nad seq chaining low inf ∨ i = .pcbS nad low6 inf ∨ i = .pcbR nad bit5 seq mid error) →
    (s.phase = .cPps → Answers (exec i s) (endsErr [] 0x40 s)) ∧
    ((s.phase = .idle ∨ s.phase = .cPower) → exec i s = .next s)

/-- R200: DISCONNECT. -/
def Obligations.DisconnectResult : Prop :=
  ∀ s : State, s.busy = false →
    Answers (exec .disconnect s) (okAfter 0x32 .none none { s with conn := false, seq := 0 })

/-- R191, R202 and R181: a whole TRANSCEIVE. The transport answers every fragment but the last with an R-block that
reports no error, and the last with a single I-block. The run sends the `N` fragments of R191 in order, with alternating
sequence bits starting at `SEQ` and the chaining bit on all but the last, returns the I-block's INF, and leaves
`SEQ + N`. -/
def Obligations.WholeTransceiveSendsEveryFragment : Prop :=
  ∀ (s : State) (req inf : Bytes) (acks : List Bit) (seq : Bit),
    s.busy = false → s.conn = true → s.edcType = .lrc → req ≠ [] → req.length ≤ Config.bufCap →
    inf.length ≤ 254 → acks.length + 1 = fragmentCount req →
    s.pending = .command 0x31 (.bytes req) ::
      answersFrom s.reqCount (acks.map ackBlock ++ [iBlock seq 0 inf]) →
    ∃ t evs, core.run (fragmentCount req + 1) s = .next t ∧ t.trace = s.trace ++ evs ∧
      sentBlocks evs = (List.range (fragmentCount req)).map (fragmentOf req s.seq) ∧
      t.seq = s.seq + BitVec.ofNat 1 (fragmentCount req) ∧ t.conn = true ∧ t.busy = false ∧
      t.results = s.results ++ [⟨.ok, 0x00, none, some (.bytes inf)⟩]

/-- R198, R202: the receive phase. When the last fragment is out, a response spread over chained I-blocks is reassembled in
order, each I-block but the last answered by the acknowledgement of its sequence bit. -/
def Obligations.ChainedResponseIsReassembled : Prop :=
  ∀ (s : State) (k : Nat) (rq : Request) (parts : List (Bit × Bytes)) (seq : Bit) (last : Bytes),
    s.busy = true → s.phase = .tSend → s.edcType = .lrc → s.off = s.req.length → s.outstanding = some (k, rq) →
    k + 1 = s.reqCount → (∀ p ∈ parts, p.2.length ≤ 254) → last.length ≤ 254 →
    ((parts.map Prod.snd).flatten ++ last).length ≤ Config.bufCap →
    s.pending = answersFrom k (parts.map (fun p => iBlock p.1 1 p.2) ++ [iBlock seq 0 last]) →
    ∃ t evs, core.run (parts.length + 1) s = .next t ∧ t.trace = s.trace ++ evs ∧
      sentBlocks evs = parts.map (fun p => ackBlock p.1) ∧ t.seq = s.seq ∧ t.busy = false ∧
      t.results = s.results ++ [⟨.ok, 0x00, none, some (.bytes ((parts.map Prod.snd).flatten ++ last))⟩]

/-! ## The whole machine -/

/-- Every step keeps the invariant of the block's registers (R24, R26, R29, R31, R34, R250). -/
def Obligations.StepKeepsInvariant : Prop :=
  ∀ s t : State, Inv s → step s = .next t → Inv t

/-- The reset state meets the invariant, and its registers have the values of R39. -/
def Obligations.ResetStateMeetsInvariant : Prop :=
  Inv State.reset ∧ State.reset.conn = false ∧ State.reset.busy = false ∧ State.reset.seq = 0 ∧
  State.reset.err = 0x00 ∧ State.reset.edcType = .lrc ∧ State.reset.phase = .idle ∧
  State.reset.outstanding = none ∧ State.reset.trace = [] ∧ State.reset.hostFault = false

/-- R181: `SEQ` changes only by reset, DISCONNECT and a successful CONNECT, which clear it, and by the sending of an
I-block, which toggles it; a step that does none of these leaves it. -/
def Obligations.SeqChangesOnlyByItsTransitions : Prop :=
  ∀ s t : State, Inv s → step s = .next t →
    t.seq = s.seq ∨
    (t.seq = s.seq + 1 ∧ ∃ more inf, t.outstanding = some (s.reqCount, .exchange (iBlock s.seq more inf)) ∧
      t.trace.getLast? = some (.tx (iBlock s.seq more inf))) ∨
    (t.seq = 0 ∧ ((∃ rest, s.pending = .reset :: rest) ∨
      (∃ rest, s.pending = .command 0x32 .none :: rest) ∨
      ((s.phase = .cPower ∨ s.phase = .cPps) ∧ t.conn = true)))

/-- R24: `CONN` changes only at the end of a successful CONNECT, at DISCONNECT and at reset; no error changes it. -/
def Obligations.ConnChangesOnlyByItsTransitions : Prop :=
  ∀ s t : State, Inv s → step s = .next t → t.conn ≠ s.conn →
    (s.conn = false ∧ t.conn = true ∧ (s.phase = .cPower ∨ s.phase = .cPps) ∧
      t.results = s.results ++ [⟨.ok, 0x00, none, none⟩]) ∨
    (t.conn = false ∧ ((∃ rest, s.pending = .reset :: rest) ∨
      (∃ rest, s.pending = .command 0x32 .none :: rest ∧
        t.results = s.results ++ [⟨.ok, 0x00, none, none⟩])))

/-- R27: `ERR` holds the code of the last command that completed: a step that delivers a record writes its code, and a step
that delivers none leaves `ERR`, but for reset, which writes 0. -/
def Obligations.ErrHoldsCodeOfLastResult : Prop :=
  ∀ s t : State, step s = .next t →
    (∃ r, t.results = s.results ++ [r] ∧ t.err = r.code ∧ (r.status = .ok ↔ r.code = 0x00)) ∨
    (t.results = s.results ∧ t.err = s.err) ∨
    (t.results = s.results ∧ t.err = 0x00 ∧ ∃ rest, s.pending = .reset :: rest)

/-- R262, R263: a step that completes a command with an error issues no request, delivers no value, leaves `CONN`, `SEQ`
and `CFG`, and leaves the block in IDLE with `BUSY = 0`. -/
def Obligations.ErrorCompletionKeepsConnection : Prop :=
  ∀ (s t : State) (r : ResultRecord), Inv s → step s = .next t → t.results = s.results ++ [r] →
    r.status = .error →
    r.value = none ∧ t.err = r.code ∧ t.busy = false ∧ t.phase = .idle ∧ t.conn = s.conn ∧ t.seq = s.seq ∧
    t.edcType = s.edcType ∧ t.outstanding = none ∧ t.reqCount = s.reqCount

/-- R43: `HOSTFAULT` is set when the host breaks a rule of R285 or R286, and never cleared, reset included. -/
def Obligations.HostFaultIsSetByViolationsAndNeverCleared : Prop :=
  ∀ s t : State, step s = .next t →
    (t.hostFault = true ↔ s.hostFault = true ∨
      (∃ op operands rest, s.pending = .command op operands :: rest ∧ s.busy = true) ∨
      (∃ w data rest, s.pending = .regPort w data :: rest ∧
        (w.toNat / 256 % 128 ≠ 0 ∨ (w = 0x8002 ∧ s.busy = true))))

/-- R34, R44, R57: the trace only grows; a step issues at most one request, whose event is then the last of the step, and
what is sent is the PPS request, an I-block of at most 254 INF bytes, or one of the two acknowledgements: never an
S-block and never an R-block that reports an error (R210). -/
def Obligations.StepSendsOnlyItsOwnBlocks : Prop :=
  ∀ s t : State, step s = .next t →
    ∃ evs, t.trace = s.trace ++ evs ∧
      ((t.reqCount = s.reqCount ∧ sentBlocks evs = []) ∨
       (t.reqCount = s.reqCount + 1 ∧ t.outstanding = some (s.reqCount, .powerOn) ∧ sentBlocks evs = [] ∧
        evs.getLast? = some .powerOn) ∨
       (t.reqCount = s.reqCount + 1 ∧ ∃ b, t.outstanding = some (s.reqCount, .exchange b) ∧ sentBlocks evs = [b] ∧
        evs.getLast? = some (.tx b) ∧
        (b = [0xFF, 0x01, 0xFE] ∨ (∃ n, b = ackBlock n) ∨
          ∃ seq more inf, inf.length ≤ 254 ∧ b = iBlock seq more inf)))

/-- R79, R141: with CRC selected no block is built: every instruction that answers a next state leaves the number of
requests, but for CONNECT, which computes no checksum (R184). -/
def Obligations.NoBlockIsSentWithCrcSelected : Prop :=
  ∀ (s t : State) (i : Instr), s.edcType = .crc → i ≠ .connect → exec i s = .next t →
    t.reqCount = s.reqCount ∧ t.outstanding = s.outstanding ∧ t.seq = (if i = .disconnect ∧ s.busy = false then 0 else s.seq)

/-- R28, R8: `CFG` changes only by a register port write to index 2 or by reset, and `AUTO_NEG` never. -/
def Obligations.CfgChangesOnlyByWriteOrReset : Prop :=
  ∀ s t : State, step s = .next t →
    t.autoNeg = s.autoNeg ∧
    (t.edcType = s.edcType ∨ (∃ rest, s.pending = .reset :: rest) ∨
      (∃ data rest, s.pending = .regPort 0x8002 data :: rest ∧ s.busy = false))

/-! ## Frames -/

/-- The commands of 40, 41 and 42 change nothing but `ERR`, the trace and the delivered records, and, while `BUSY = 1`,
`HOSTFAULT` alone (40 and 42 say none of them reads or writes `CONN`, `SEQ`, `CFG` or the transport). -/
def Obligations.ComputingCommandsFrame : Prop :=
  ∀ (s t : State) (i : Instr), computes i = true → exec i s = .next t →
    t.conn = s.conn ∧ t.seq = s.seq ∧ t.edcType = s.edcType ∧ t.busy = s.busy ∧
    (s.phase = .idle → t.phase = .idle) ∧ t.outstanding = s.outstanding ∧ t.reqCount = s.reqCount ∧ t.autoNeg = s.autoNeg ∧
    t.regReads = s.regReads ∧ t.pending = s.pending ∧
    (s.busy = false → t.hostFault = s.hostFault) ∧
    (s.busy = true → t = { s with hostFault := true })

/-- CONNECT, TRANSCEIVE, DISCONNECT and the received blocks leave `CFG`, `AUTO_NEG`, the register port and the inputs; all
but DISCONNECT leave `CONN` in the step that executes them, and CONNECT leaves `SEQ`. -/
def Obligations.ProtocolInstructionsFrame : Prop :=
  ∀ (s t : State) (i : Instr), computes i = false → (∀ idx, i ≠ .regRead idx) → (∀ idx v, i ≠ .regWrite idx v) →
    exec i s = .next t →
    t.edcType = s.edcType ∧ t.autoNeg = s.autoNeg ∧ t.regReads = s.regReads ∧ t.pending = s.pending ∧
    (i ≠ .disconnect → t.conn = s.conn) ∧ (i = .connect → t.seq = s.seq) ∧
    (t.results = s.results ∨ ∃ r, t.results = s.results ++ [r]) ∧
    (s.hostFault = true → t.hostFault = true)

/-! ## The transport's error detail -/

/-- R8, R213, D40: the block copies a transport error's detail and does nothing else with it. Replacing every detail, those
still to come included, by another of the same type replaces them in the next state and changes nothing else, whatever the
type is (log entry 7). -/
def Obligations.TransportDetailIsOnlyCopied : Prop :=
  ∀ (f : TransportErr → TransportErr) (s : State),
    step (mapDetail f s) = match step s with
      | .next t => .next (mapDetail f t)
      | .fault e => .fault e
      | .refused e => .refused e
end

