-- ==== Sys2Proof/Laws/Frame.lean ====
section
/-! SUPPORT. What the frame encoder and decoder can do. -/

namespace Sys2Proof.Machine

/-- The one way `ParseBlock` answers a record: every check has passed (R160). -/
theorem parseBlock_ok {t : EdcType} {b : Bytes} {blk : Block} (h : parseBlock t b = .ok blk) :
    t = .lrc ∧ b.length = 4 + natAt b 2 ∧ natAt b 2 ≤ 254 ∧
      byteAt b (3 + natAt b 2) = lrc b (3 + natAt b 2) ∧ classify b (natAt b 2) = .ok blk := by
  unfold parseBlock at h
  have hl : natAt b 2 < 256 := (byteAt b 2).isLt
  split at h
  · cases h
  rename_i ht
  split at h
  · cases h
  dsimp only at h
  split at h
  · cases h
  split at h
  · cases h
  split at h
  · cases h
  rename_i hx
  split at h
  · cases h
  refine ⟨by cases t <;> simp_all, by omega, by omega, not_not.1 hx, h⟩

/-- The length of a block with an LRC (R72). -/
@[simp] theorem frameBytes_length (nad pcb : Byte) (inf : Bytes) :
    (frameBytes nad pcb inf).length = 4 + inf.length := by
  simp [frameBytes, frameBody]; omega

/-- NAD, PCB, LEN, INF and EDC of a block, at the places of R72. -/
theorem frameBytes_fields (nad pcb : Byte) (inf : Bytes) (h : inf.length ≤ 254) :
    byteAt (frameBytes nad pcb inf) 0 = nad ∧ byteAt (frameBytes nad pcb inf) 1 = pcb ∧
    natAt (frameBytes nad pcb inf) 2 = inf.length ∧
    slice (frameBytes nad pcb inf) 3 (3 + inf.length) = inf ∧
    byteAt (frameBytes nad pcb inf) (3 + inf.length) = lrc (frameBytes nad pcb inf) (3 + inf.length) := by
  refine ⟨rfl, rfl, ?_, ?_, ?_⟩
  · simp [natAt, byteAt, frameBytes, frameBody, lowByte]; omega
  · simp [slice, frameBytes, frameBody]
  · have hlen : (frameBody nad pcb inf).length = 3 + inf.length := by simp [frameBody]; omega
    simp only [byteAt, frameBytes, lrc, hlen]
    rw [List.take_append_of_le_length (by omega), ← hlen]
    simp

/-- `ParseBlock` of a block laid out with its LRC comes to its kind (R160, R170). -/
theorem parseBlock_frameBytes (nad pcb : Byte) (inf : Bytes) (h : inf.length ≤ 254) :
    parseBlock .lrc (frameBytes nad pcb inf) = classify (frameBytes nad pcb inf) inf.length := by
  obtain ⟨-, -, hl, -, hx⟩ := frameBytes_fields nad pcb inf h
  unfold parseBlock
  rw [hl]
  simp only [frameBytes_length]
  rw [if_neg (by decide), if_neg (by omega)]
  rw [if_neg (by omega), if_neg (by omega), if_neg (not_not.2 hx), if_neg (by omega)]

/-- The kind of a PCB by its top bits (R76). -/
theorem kindOf_pcb :
    (∀ seq chaining low, kindOf (pcbOfI seq chaining low) = .i) ∧ (∀ low, kindOf (pcbOfS low) = .s) ∧
    (∀ bit5 seq mid e, kindOf (pcbOfR bit5 seq mid e) = .r) := by
  refine ⟨by decide, by decide, ?_⟩
  intro b s m e; revert b s m; cases e <;> decide

/-- The bits of a PCB are the fields it was built from (R73 to R75). -/
theorem pcb_fields :
    (∀ seq chaining low, pcbBit (pcbOfI seq chaining low) 6 = seq ∧ pcbBit (pcbOfI seq chaining low) 5 = chaining ∧
      (pcbOfI seq chaining low).extractLsb' 0 5 = low) ∧
    (∀ low, (pcbOfS low).extractLsb' 0 6 = low) ∧
    (∀ bit5 seq mid e, (pcbOfR bit5 seq mid e).extractLsb' 5 1 = bit5 ∧ pcbBit (pcbOfR bit5 seq mid e) 4 = seq ∧
      (pcbOfR bit5 seq mid e).extractLsb' 2 2 = mid ∧ rErrorOfBits ((pcbOfR bit5 seq mid e).extractLsb' 0 2) = some e) := by
  refine ⟨by decide, by decide, ?_⟩
  intro b s m e; revert b s m; cases e <;> decide

/-- With the LRC selected the builders lay the block out with its LRC (R150). -/
theorem withEdc_lrc (nad pcb : Byte) (inf : Bytes) :
    withEdc .lrc (frameBody nad pcb inf) = .ok (frameBytes nad pcb inf) := rfl

/-- `BuildI`: the length check, then the capability, then the block (R150, R255). -/
theorem buildI_cases (t : EdcType) (seq chaining : Bit) (inf : Bytes) :
    buildI t seq chaining inf =
      if 254 < inf.length then .error .encPayloadTooLong
      else match t with
        | .lrc => .ok (frameBytes 0x00 (pcbOfI seq chaining 0) inf)
        | .crc => .error .capCrcUnsupported := by
  cases t <;> rfl

end Sys2Proof.Machine
end

