-- ==== Sys2Proof/Laws/State.lean ====
section
/-! SUPPORT. What each named update of the state does to each field: one lemma per field per update. -/

namespace Sys2Proof.Machine

/-! ### `emit` -/

@[simp] theorem emit_conn (e : Event) (s : State) : (emit e s).conn = s.conn := rfl
@[simp] theorem emit_busy (e : Event) (s : State) : (emit e s).busy = s.busy := rfl
@[simp] theorem emit_seq (e : Event) (s : State) : (emit e s).seq = s.seq := rfl
@[simp] theorem emit_err (e : Event) (s : State) : (emit e s).err = s.err := rfl
@[simp] theorem emit_edcType (e : Event) (s : State) : (emit e s).edcType = s.edcType := rfl
@[simp] theorem emit_phase (e : Event) (s : State) : (emit e s).phase = s.phase := rfl
@[simp] theorem emit_req (e : Event) (s : State) : (emit e s).req = s.req := rfl
@[simp] theorem emit_off (e : Event) (s : State) : (emit e s).off = s.off := rfl
@[simp] theorem emit_rsp (e : Event) (s : State) : (emit e s).rsp = s.rsp := rfl
@[simp] theorem emit_rxseq (e : Event) (s : State) : (emit e s).rxseq = s.rxseq := rfl
@[simp] theorem emit_outstanding (e : Event) (s : State) : (emit e s).outstanding = s.outstanding := rfl
@[simp] theorem emit_reqCount (e : Event) (s : State) : (emit e s).reqCount = s.reqCount := rfl
@[simp] theorem emit_autoNeg (e : Event) (s : State) : (emit e s).autoNeg = s.autoNeg := rfl
@[simp] theorem emit_hostFault (e : Event) (s : State) : (emit e s).hostFault = s.hostFault := rfl
@[simp] theorem emit_trace (e : Event) (s : State) : (emit e s).trace = s.trace ++ [e] := rfl
@[simp] theorem emit_results (e : Event) (s : State) : (emit e s).results = s.results := rfl
@[simp] theorem emit_regReads (e : Event) (s : State) : (emit e s).regReads = s.regReads := rfl
@[simp] theorem emit_pending (e : Event) (s : State) : (emit e s).pending = s.pending := rfl

/-! ### `markHostFault` -/

@[simp] theorem markHostFault_conn (s : State) : (markHostFault s).conn = s.conn := rfl
@[simp] theorem markHostFault_busy (s : State) : (markHostFault s).busy = s.busy := rfl
@[simp] theorem markHostFault_seq (s : State) : (markHostFault s).seq = s.seq := rfl
@[simp] theorem markHostFault_err (s : State) : (markHostFault s).err = s.err := rfl
@[simp] theorem markHostFault_edcType (s : State) : (markHostFault s).edcType = s.edcType := rfl
@[simp] theorem markHostFault_phase (s : State) : (markHostFault s).phase = s.phase := rfl
@[simp] theorem markHostFault_req (s : State) : (markHostFault s).req = s.req := rfl
@[simp] theorem markHostFault_off (s : State) : (markHostFault s).off = s.off := rfl
@[simp] theorem markHostFault_rsp (s : State) : (markHostFault s).rsp = s.rsp := rfl
@[simp] theorem markHostFault_rxseq (s : State) : (markHostFault s).rxseq = s.rxseq := rfl
@[simp] theorem markHostFault_outstanding (s : State) : (markHostFault s).outstanding = s.outstanding := rfl
@[simp] theorem markHostFault_reqCount (s : State) : (markHostFault s).reqCount = s.reqCount := rfl
@[simp] theorem markHostFault_autoNeg (s : State) : (markHostFault s).autoNeg = s.autoNeg := rfl
@[simp] theorem markHostFault_hostFault (s : State) : (markHostFault s).hostFault = true := rfl
@[simp] theorem markHostFault_trace (s : State) : (markHostFault s).trace = s.trace := rfl
@[simp] theorem markHostFault_results (s : State) : (markHostFault s).results = s.results := rfl
@[simp] theorem markHostFault_regReads (s : State) : (markHostFault s).regReads = s.regReads := rfl
@[simp] theorem markHostFault_pending (s : State) : (markHostFault s).pending = s.pending := rfl

/-! ### `deliver` -/

@[simp] theorem deliver_conn (r : ResultRecord) (s : State) : (deliver r s).conn = s.conn := rfl
@[simp] theorem deliver_busy (r : ResultRecord) (s : State) : (deliver r s).busy = false := rfl
@[simp] theorem deliver_seq (r : ResultRecord) (s : State) : (deliver r s).seq = s.seq := rfl
@[simp] theorem deliver_err (r : ResultRecord) (s : State) : (deliver r s).err = r.code := rfl
@[simp] theorem deliver_edcType (r : ResultRecord) (s : State) : (deliver r s).edcType = s.edcType := rfl
@[simp] theorem deliver_phase (r : ResultRecord) (s : State) : (deliver r s).phase = .idle := rfl
@[simp] theorem deliver_req (r : ResultRecord) (s : State) : (deliver r s).req = s.req := rfl
@[simp] theorem deliver_off (r : ResultRecord) (s : State) : (deliver r s).off = s.off := rfl
@[simp] theorem deliver_rsp (r : ResultRecord) (s : State) : (deliver r s).rsp = s.rsp := rfl
@[simp] theorem deliver_rxseq (r : ResultRecord) (s : State) : (deliver r s).rxseq = s.rxseq := rfl
@[simp] theorem deliver_outstanding (r : ResultRecord) (s : State) : (deliver r s).outstanding = s.outstanding := rfl
@[simp] theorem deliver_reqCount (r : ResultRecord) (s : State) : (deliver r s).reqCount = s.reqCount := rfl
@[simp] theorem deliver_autoNeg (r : ResultRecord) (s : State) : (deliver r s).autoNeg = s.autoNeg := rfl
@[simp] theorem deliver_hostFault (r : ResultRecord) (s : State) : (deliver r s).hostFault = s.hostFault := rfl
@[simp] theorem deliver_trace (r : ResultRecord) (s : State) : (deliver r s).trace = s.trace ++ [.result r.status r.code r.value] := rfl
@[simp] theorem deliver_results (r : ResultRecord) (s : State) : (deliver r s).results = s.results ++ [r] := rfl
@[simp] theorem deliver_regReads (r : ResultRecord) (s : State) : (deliver r s).regReads = s.regReads := rfl
@[simp] theorem deliver_pending (r : ResultRecord) (s : State) : (deliver r s).pending = s.pending := rfl

/-! ### `succeed` -/

@[simp] theorem succeed_conn (v : Option Value) (s : State) : (succeed v s).conn = s.conn := rfl
@[simp] theorem succeed_busy (v : Option Value) (s : State) : (succeed v s).busy = false := rfl
@[simp] theorem succeed_seq (v : Option Value) (s : State) : (succeed v s).seq = s.seq := rfl
@[simp] theorem succeed_err (v : Option Value) (s : State) : (succeed v s).err = 0x00 := rfl
@[simp] theorem succeed_edcType (v : Option Value) (s : State) : (succeed v s).edcType = s.edcType := rfl
@[simp] theorem succeed_phase (v : Option Value) (s : State) : (succeed v s).phase = .idle := rfl
@[simp] theorem succeed_req (v : Option Value) (s : State) : (succeed v s).req = s.req := rfl
@[simp] theorem succeed_off (v : Option Value) (s : State) : (succeed v s).off = s.off := rfl
@[simp] theorem succeed_rsp (v : Option Value) (s : State) : (succeed v s).rsp = s.rsp := rfl
@[simp] theorem succeed_rxseq (v : Option Value) (s : State) : (succeed v s).rxseq = s.rxseq := rfl
@[simp] theorem succeed_outstanding (v : Option Value) (s : State) : (succeed v s).outstanding = s.outstanding := rfl
@[simp] theorem succeed_reqCount (v : Option Value) (s : State) : (succeed v s).reqCount = s.reqCount := rfl
@[simp] theorem succeed_autoNeg (v : Option Value) (s : State) : (succeed v s).autoNeg = s.autoNeg := rfl
@[simp] theorem succeed_hostFault (v : Option Value) (s : State) : (succeed v s).hostFault = s.hostFault := rfl
@[simp] theorem succeed_trace (v : Option Value) (s : State) : (succeed v s).trace = s.trace ++ [.result .ok 0x00 v] := rfl
@[simp] theorem succeed_results (v : Option Value) (s : State) : (succeed v s).results = s.results ++ [⟨.ok, 0x00, none, v⟩] := rfl
@[simp] theorem succeed_regReads (v : Option Value) (s : State) : (succeed v s).regReads = s.regReads := rfl
@[simp] theorem succeed_pending (v : Option Value) (s : State) : (succeed v s).pending = s.pending := rfl

/-! ### `raise` -/

@[simp] theorem raise_conn (e : ErrCode) (s : State) : (raise e s).conn = s.conn := rfl
@[simp] theorem raise_busy (e : ErrCode) (s : State) : (raise e s).busy = false := rfl
@[simp] theorem raise_seq (e : ErrCode) (s : State) : (raise e s).seq = s.seq := rfl
@[simp] theorem raise_err (e : ErrCode) (s : State) : (raise e s).err = errCode e := rfl
@[simp] theorem raise_edcType (e : ErrCode) (s : State) : (raise e s).edcType = s.edcType := rfl
@[simp] theorem raise_phase (e : ErrCode) (s : State) : (raise e s).phase = .idle := rfl
@[simp] theorem raise_req (e : ErrCode) (s : State) : (raise e s).req = s.req := rfl
@[simp] theorem raise_off (e : ErrCode) (s : State) : (raise e s).off = s.off := rfl
@[simp] theorem raise_rsp (e : ErrCode) (s : State) : (raise e s).rsp = s.rsp := rfl
@[simp] theorem raise_rxseq (e : ErrCode) (s : State) : (raise e s).rxseq = s.rxseq := rfl
@[simp] theorem raise_outstanding (e : ErrCode) (s : State) : (raise e s).outstanding = s.outstanding := rfl
@[simp] theorem raise_reqCount (e : ErrCode) (s : State) : (raise e s).reqCount = s.reqCount := rfl
@[simp] theorem raise_autoNeg (e : ErrCode) (s : State) : (raise e s).autoNeg = s.autoNeg := rfl
@[simp] theorem raise_hostFault (e : ErrCode) (s : State) : (raise e s).hostFault = s.hostFault := rfl
@[simp] theorem raise_trace (e : ErrCode) (s : State) : (raise e s).trace = s.trace ++ [.result .error (errCode e) none] := rfl
@[simp] theorem raise_results (e : ErrCode) (s : State) : (raise e s).results = s.results ++ [⟨.error, errCode e, none, none⟩] := rfl
@[simp] theorem raise_regReads (e : ErrCode) (s : State) : (raise e s).regReads = s.regReads := rfl
@[simp] theorem raise_pending (e : ErrCode) (s : State) : (raise e s).pending = s.pending := rfl

/-! ### `raiseTransport` -/

@[simp] theorem raiseTransport_conn (d : TransportErr) (s : State) : (raiseTransport d s).conn = s.conn := rfl
@[simp] theorem raiseTransport_busy (d : TransportErr) (s : State) : (raiseTransport d s).busy = false := rfl
@[simp] theorem raiseTransport_seq (d : TransportErr) (s : State) : (raiseTransport d s).seq = s.seq := rfl
@[simp] theorem raiseTransport_err (d : TransportErr) (s : State) : (raiseTransport d s).err = 0x60 := rfl
@[simp] theorem raiseTransport_edcType (d : TransportErr) (s : State) : (raiseTransport d s).edcType = s.edcType := rfl
@[simp] theorem raiseTransport_phase (d : TransportErr) (s : State) : (raiseTransport d s).phase = .idle := rfl
@[simp] theorem raiseTransport_req (d : TransportErr) (s : State) : (raiseTransport d s).req = s.req := rfl
@[simp] theorem raiseTransport_off (d : TransportErr) (s : State) : (raiseTransport d s).off = s.off := rfl
@[simp] theorem raiseTransport_rsp (d : TransportErr) (s : State) : (raiseTransport d s).rsp = s.rsp := rfl
@[simp] theorem raiseTransport_rxseq (d : TransportErr) (s : State) : (raiseTransport d s).rxseq = s.rxseq := rfl
@[simp] theorem raiseTransport_outstanding (d : TransportErr) (s : State) : (raiseTransport d s).outstanding = s.outstanding := rfl
@[simp] theorem raiseTransport_reqCount (d : TransportErr) (s : State) : (raiseTransport d s).reqCount = s.reqCount := rfl
@[simp] theorem raiseTransport_autoNeg (d : TransportErr) (s : State) : (raiseTransport d s).autoNeg = s.autoNeg := rfl
@[simp] theorem raiseTransport_hostFault (d : TransportErr) (s : State) : (raiseTransport d s).hostFault = s.hostFault := rfl
@[simp] theorem raiseTransport_trace (d : TransportErr) (s : State) : (raiseTransport d s).trace = s.trace ++ [.result .error 0x60 none] := rfl
@[simp] theorem raiseTransport_results (d : TransportErr) (s : State) : (raiseTransport d s).results = s.results ++ [⟨.error, 0x60, some d, none⟩] := rfl
@[simp] theorem raiseTransport_regReads (d : TransportErr) (s : State) : (raiseTransport d s).regReads = s.regReads := rfl
@[simp] theorem raiseTransport_pending (d : TransportErr) (s : State) : (raiseTransport d s).pending = s.pending := rfl

/-! ### `issue` -/

@[simp] theorem issue_conn (p : Phase) (rq : Request) (s : State) : (issue p rq s).conn = s.conn := rfl
@[simp] theorem issue_busy (p : Phase) (rq : Request) (s : State) : (issue p rq s).busy = s.busy := rfl
@[simp] theorem issue_seq (p : Phase) (rq : Request) (s : State) : (issue p rq s).seq = s.seq := rfl
@[simp] theorem issue_err (p : Phase) (rq : Request) (s : State) : (issue p rq s).err = s.err := rfl
@[simp] theorem issue_edcType (p : Phase) (rq : Request) (s : State) : (issue p rq s).edcType = s.edcType := rfl
@[simp] theorem issue_phase (p : Phase) (rq : Request) (s : State) : (issue p rq s).phase = p := rfl
@[simp] theorem issue_req (p : Phase) (rq : Request) (s : State) : (issue p rq s).req = s.req := rfl
@[simp] theorem issue_off (p : Phase) (rq : Request) (s : State) : (issue p rq s).off = s.off := rfl
@[simp] theorem issue_rsp (p : Phase) (rq : Request) (s : State) : (issue p rq s).rsp = s.rsp := rfl
@[simp] theorem issue_rxseq (p : Phase) (rq : Request) (s : State) : (issue p rq s).rxseq = s.rxseq := rfl
@[simp] theorem issue_outstanding (p : Phase) (rq : Request) (s : State) : (issue p rq s).outstanding = some (s.reqCount, rq) := rfl
@[simp] theorem issue_reqCount (p : Phase) (rq : Request) (s : State) : (issue p rq s).reqCount = s.reqCount + 1 := rfl
@[simp] theorem issue_autoNeg (p : Phase) (rq : Request) (s : State) : (issue p rq s).autoNeg = s.autoNeg := rfl
@[simp] theorem issue_hostFault (p : Phase) (rq : Request) (s : State) : (issue p rq s).hostFault = s.hostFault := rfl
@[simp] theorem issue_trace (p : Phase) (rq : Request) (s : State) : (issue p rq s).trace = s.trace ++ [requestEvent rq] := rfl
@[simp] theorem issue_results (p : Phase) (rq : Request) (s : State) : (issue p rq s).results = s.results := rfl
@[simp] theorem issue_regReads (p : Phase) (rq : Request) (s : State) : (issue p rq s).regReads = s.regReads := rfl
@[simp] theorem issue_pending (p : Phase) (rq : Request) (s : State) : (issue p rq s).pending = s.pending := rfl

/-! ### `clearOutstanding` -/

@[simp] theorem clearOutstanding_conn (s : State) : (clearOutstanding s).conn = s.conn := rfl
@[simp] theorem clearOutstanding_busy (s : State) : (clearOutstanding s).busy = s.busy := rfl
@[simp] theorem clearOutstanding_seq (s : State) : (clearOutstanding s).seq = s.seq := rfl
@[simp] theorem clearOutstanding_err (s : State) : (clearOutstanding s).err = s.err := rfl
@[simp] theorem clearOutstanding_edcType (s : State) : (clearOutstanding s).edcType = s.edcType := rfl
@[simp] theorem clearOutstanding_phase (s : State) : (clearOutstanding s).phase = s.phase := rfl
@[simp] theorem clearOutstanding_req (s : State) : (clearOutstanding s).req = s.req := rfl
@[simp] theorem clearOutstanding_off (s : State) : (clearOutstanding s).off = s.off := rfl
@[simp] theorem clearOutstanding_rsp (s : State) : (clearOutstanding s).rsp = s.rsp := rfl
@[simp] theorem clearOutstanding_rxseq (s : State) : (clearOutstanding s).rxseq = s.rxseq := rfl
@[simp] theorem clearOutstanding_outstanding (s : State) : (clearOutstanding s).outstanding = none := rfl
@[simp] theorem clearOutstanding_reqCount (s : State) : (clearOutstanding s).reqCount = s.reqCount := rfl
@[simp] theorem clearOutstanding_autoNeg (s : State) : (clearOutstanding s).autoNeg = s.autoNeg := rfl
@[simp] theorem clearOutstanding_hostFault (s : State) : (clearOutstanding s).hostFault = s.hostFault := rfl
@[simp] theorem clearOutstanding_trace (s : State) : (clearOutstanding s).trace = s.trace := rfl
@[simp] theorem clearOutstanding_results (s : State) : (clearOutstanding s).results = s.results := rfl
@[simp] theorem clearOutstanding_regReads (s : State) : (clearOutstanding s).regReads = s.regReads := rfl
@[simp] theorem clearOutstanding_pending (s : State) : (clearOutstanding s).pending = s.pending := rfl

/-! ### `resetBlock` -/

@[simp] theorem resetBlock_conn (s : State) : (resetBlock s).conn = false := rfl
@[simp] theorem resetBlock_busy (s : State) : (resetBlock s).busy = false := rfl
@[simp] theorem resetBlock_seq (s : State) : (resetBlock s).seq = 0 := rfl
@[simp] theorem resetBlock_err (s : State) : (resetBlock s).err = 0x00 := rfl
@[simp] theorem resetBlock_edcType (s : State) : (resetBlock s).edcType = .lrc := rfl
@[simp] theorem resetBlock_phase (s : State) : (resetBlock s).phase = .idle := rfl
@[simp] theorem resetBlock_req (s : State) : (resetBlock s).req = [] := rfl
@[simp] theorem resetBlock_off (s : State) : (resetBlock s).off = 0 := rfl
@[simp] theorem resetBlock_rsp (s : State) : (resetBlock s).rsp = [] := rfl
@[simp] theorem resetBlock_rxseq (s : State) : (resetBlock s).rxseq = 0 := rfl
@[simp] theorem resetBlock_outstanding (s : State) : (resetBlock s).outstanding = none := rfl
@[simp] theorem resetBlock_reqCount (s : State) : (resetBlock s).reqCount = s.reqCount := rfl
@[simp] theorem resetBlock_autoNeg (s : State) : (resetBlock s).autoNeg = s.autoNeg := rfl
@[simp] theorem resetBlock_hostFault (s : State) : (resetBlock s).hostFault = s.hostFault := rfl
@[simp] theorem resetBlock_trace (s : State) : (resetBlock s).trace = s.trace ++ [.reset] := rfl
@[simp] theorem resetBlock_results (s : State) : (resetBlock s).results = s.results := rfl
@[simp] theorem resetBlock_regReads (s : State) : (resetBlock s).regReads = s.regReads := rfl
@[simp] theorem resetBlock_pending (s : State) : (resetBlock s).pending = s.pending := rfl

end Sys2Proof.Machine
end

