-- ==== Sys2Proof/Laws/Ops.lean ====
section
/-! SUPPORT. One lemma for each shared operation of the machine that says everything it can do. -/

namespace Sys2Proof.Machine

/-- A command is accepted exactly while `BUSY = 0` (R35). -/
theorem acceptCommand_of_idle {s : State} (h : s.busy = false) (op : Byte) (operands : Operands)
    (body : State → State) : acceptCommand op operands body s = body (emit (.cmd op operands) s) := by
  simp [acceptCommand, h]

/-- A command issued while `BUSY = 1` only sets the mark (R285). -/
theorem acceptCommand_of_busy {s : State} (h : s.busy = true) (op : Byte) (operands : Operands)
    (body : State → State) : acceptCommand op operands body s = markHostFault s := by
  simp [acceptCommand, h]

/-- The two things the command port can do. -/
theorem acceptCommand_cases (op : Byte) (operands : Operands) (body : State → State) (s : State) :
    (s.busy = true ∧ acceptCommand op operands body s = markHostFault s) ∨
    (s.busy = false ∧ acceptCommand op operands body s = body (emit (.cmd op operands) s)) := by
  cases h : s.busy
  · exact .inr ⟨rfl, acceptCommand_of_idle h ..⟩
  · exact .inl ⟨rfl, acceptCommand_of_busy h ..⟩

/-- The capacity test is the comparison with `BUF_CAP` (R8). -/
theorem withinCap_iff (n : Nat) : Config.withinCap n = true ↔ n ≤ Config.bufCap := by
  rw [Config.withinCap, Bool.or_eq_true, Nat.ble_eq, Nat.ble_eq]
  exact ⟨fun h => h.elim (fun h => Nat.le_trans h (Nat.le_add_left _ _)) id, .inr⟩

/-- The buffer check fails exactly for a sequence longer than `BUF_CAP` (R51). -/
theorem fitsBuffer_iff (b : Bytes) : fitsBuffer b = true ↔ b.length ≤ Config.bufCap := withinCap_iff _

/-- `BUF_CAP` is at least 65544 (R8). -/
theorem le_bufCap {n : Nat} (h : n ≤ 65544) : n ≤ Config.bufCap := by
  unfold Config.bufCap; omega

/-- A sequence that fits goes on. -/
theorem withBuffer_of_fits {b : Bytes} (h : b.length ≤ Config.bufCap) (body : State → State) (s : State) :
    withBuffer b body s = body s := by
  simp [withBuffer, (fitsBuffer_iff b).2 h]

/-- A longer sequence completes with `ENC_BAD_OPERAND` (R51). -/
theorem withBuffer_of_overlong {b : Bytes} (h : Config.bufCap < b.length) (body : State → State) (s : State) :
    withBuffer b body s = raise .encBadOperand s := by
  have : fitsBuffer b = false := by rw [Bool.eq_false_iff, ne_eq, fitsBuffer_iff]; omega
  simp [withBuffer, this]

/-- The two things the buffer check can do. -/
theorem withBuffer_cases (b : Bytes) (body : State → State) (s : State) :
    (b.length ≤ Config.bufCap ∧ withBuffer b body s = body s) ∨
    (Config.bufCap < b.length ∧ withBuffer b body s = raise .encBadOperand s) := by
  by_cases h : b.length ≤ Config.bufCap
  · exact .inl ⟨h, withBuffer_of_fits h ..⟩
  · exact .inr ⟨Nat.not_le.1 h, withBuffer_of_overlong (Nat.not_le.1 h) ..⟩

@[simp] theorem finish_ok (v : Value) (s : State) : finish (.ok v) s = succeed (some v) s := rfl

@[simp] theorem finish_error (e : ErrCode) (s : State) : finish (.error e) s = raise e s := rfl

/-- Completing with a computation delivers exactly one record. -/
theorem finish_eq_deliver (r : Except ErrCode Value) (s : State) : ∃ rec, finish r s = deliver rec s := by
  cases r
  · exact ⟨_, rfl⟩
  · exact ⟨_, rfl⟩

end Sys2Proof.Machine
end

