-- ==== Sys2Proof/Laws/PerInstr.lean ====
section
/-! SUPPORT. One statement per instruction about its encoding: its words carry the fixed bits of its row of
spec/opcode_table.json. -/

namespace Sys2Proof.Laws.TableRow

open Sys2Proof.Machine

/-- The bits `mask` of `w` are those of `fixed`. -/
def Fixed (w mask fixed : Nat) : Prop := w &&& mask = fixed

/-- The words of an instruction carry the match value of its row under the row's mask. -/
def Words (mask fixed : Nat) : Sys2Proof.Words → Prop
  | .command op _ => Fixed op.toNat mask fixed
  | .regPort w _ => Fixed w.toNat mask fixed
  | .frame b => Fixed (natAt b 1) mask fixed

/-- The instruction's encoding lies in its row (the columns match and mask of the table). -/
def Statement : Instr → Prop
  | i@(.edcCompute _ _) => Words 0xFF 0x01 (encode i)
  | i@.edcLength => Words 0xFF 0x02 (encode i)
  | i@(.apduEncode _) => Words 0xFF 0x10 (encode i)
  | i@(.apduDecode _) => Words 0xFF 0x11 (encode i)
  | i@(.rapduEncode _) => Words 0xFF 0x12 (encode i)
  | i@(.rapduDecode _) => Words 0xFF 0x13 (encode i)
  | i@(.apduChain _ _) => Words 0xFF 0x14 (encode i)
  | i@(.frameBuildI _ _ _) => Words 0xFF 0x20 (encode i)
  | i@(.frameBuildR _) => Words 0xFF 0x21 (encode i)
  | i@(.frameParse _) => Words 0xFF 0x22 (encode i)
  | i@.connect => Words 0xFF 0x30 (encode i)
  | i@(.transceive _) => Words 0xFF 0x31 (encode i)
  | i@.disconnect => Words 0xFF 0x32 (encode i)
  | i@(.regRead _) => Words 0xFF00 0x0000 (encode i)
  | i@(.regWrite _ _) => Words 0xFF00 0x8000 (encode i)
  | i@(.pcbI _ _ _ _ _) => Words 0x80 0x00 (encode i)
  | i@(.pcbS _ _ _) => Words 0xC0 0xC0 (encode i)
  | i@(.pcbR _ _ _ _ _) => Words 0xC0 0x80 (encode i)

theorem edcCompute (bytes : Bytes) (stop : Nat) : Statement (.edcCompute bytes stop) := by
  simp [Statement, Words, Fixed, encode]
theorem edcLength : Statement .edcLength := by simp [Statement, Words, Fixed, encode]
theorem apduEncode (a : CommandApdu) : Statement (.apduEncode a) := by simp [Statement, Words, Fixed, encode]
theorem apduDecode (bytes : Bytes) : Statement (.apduDecode bytes) := by simp [Statement, Words, Fixed, encode]
theorem rapduEncode (r : ResponseApdu) : Statement (.rapduEncode r) := by simp [Statement, Words, Fixed, encode]
theorem rapduDecode (bytes : Bytes) : Statement (.rapduDecode bytes) := by simp [Statement, Words, Fixed, encode]
theorem apduChain (a : CommandApdu) (seg : Nat) : Statement (.apduChain a seg) := by
  simp [Statement, Words, Fixed, encode]
theorem frameBuildI (seq chaining : Bit) (inf : Bytes) : Statement (.frameBuildI seq chaining inf) := by
  simp [Statement, Words, Fixed, encode]
theorem frameBuildR (n : Bit) : Statement (.frameBuildR n) := by simp [Statement, Words, Fixed, encode]
theorem frameParse (bytes : Bytes) : Statement (.frameParse bytes) := by simp [Statement, Words, Fixed, encode]
theorem connect : Statement .connect := by simp [Statement, Words, Fixed, encode]
theorem transceive (req : Bytes) : Statement (.transceive req) := by simp [Statement, Words, Fixed, encode]
theorem disconnect : Statement .disconnect := by simp [Statement, Words, Fixed, encode]

/-- A register port word with `W = 0` and any index lies in REG_READ's row. -/
theorem regRead (idx : Byte) : Statement (.regRead idx) := by
  simp only [Statement, Words, Fixed, encode]; revert idx; decide

/-- A register port word with `W = 1` and any index lies in REG_WRITE's row. -/
theorem regWrite (idx value : Byte) : Statement (.regWrite idx value) := by
  simp only [Statement, Words, Fixed, encode]; revert idx; decide

/-- The PCB of a block as laid out. -/
theorem natAt_frameBytes (nad pcb : Byte) (inf : Bytes) : natAt (frameBytes nad pcb inf) 1 = pcb.toNat := rfl

theorem pcbI (nad : Byte) (seq chaining : Bit) (low : BitVec 5) (inf : Bytes) :
    Statement (.pcbI nad seq chaining low inf) := by
  simp only [Statement, Words, Fixed, encode, natAt_frameBytes]; revert seq chaining low; decide

theorem pcbS (nad : Byte) (low : BitVec 6) (inf : Bytes) : Statement (.pcbS nad low inf) := by
  simp only [Statement, Words, Fixed, encode, natAt_frameBytes]; revert low; decide

theorem pcbR (nad : Byte) (bit5 seq : Bit) (mid : BitVec 2) (error : RError) :
    Statement (.pcbR nad bit5 seq mid error) := by
  simp only [Statement, Words, Fixed, encode, natAt_frameBytes]
  revert bit5 seq mid; cases error <;> decide

end Sys2Proof.Laws.TableRow
end

