-- ==== Sys2Proof/Laws/Protocol.lean ====
section
/-! SUPPORT. What the steps of CONNECT and TRANSCEIVE can do: each completes the command or issues one request. -/

namespace Sys2Proof.Machine

/-- There are two checksum selections (R28). -/
theorem edcType_cases (t : EdcType) : t = .lrc ∨ t = .crc := by cases t <;> simp

/-- A fragment carries at most 254 bytes of the request (R191). -/
theorem fragment_length_le (s : State) :
    (slice s.req s.off (s.off + fragmentSize s)).length ≤ Config.maxPayload := by
  simp only [slice, List.length_take, List.length_drop, fragmentSize, Config.fragmentLen, Config.maxPayload]
  omega

/-- With the LRC selected every fragment is built (R150, R151). -/
theorem nextFragment_of_lrc {s : State} (h : s.edcType = .lrc) : ∃ f, nextFragment s = .ok f := by
  have := fragment_length_le s
  simp [nextFragment, buildI, h, withEdc, checksum, Nat.not_lt.2 this]

/-- With CRC selected no fragment is built (R141). -/
theorem nextFragment_of_crc {s : State} (h : s.edcType = .crc) : nextFragment s = .error .capCrcUnsupported := by
  have := fragment_length_le s
  simp [nextFragment, buildI, h, withEdc, checksum, Nat.not_lt.2 this]

/-- One turn of the send loop builds a fragment, toggles `SEQ` and sends it, or ends the command (R190, R192). -/
theorem sendFragment_cases (s : State) :
    (∃ f, s.edcType = .lrc ∧ nextFragment s = .ok f ∧ sendFragment s =
      issue .tSend (.exchange f) { s with seq := s.seq + 1, off := s.off + fragmentSize s }) ∨
    (s.edcType = .crc ∧ sendFragment s = raise .capCrcUnsupported s) := by
  obtain h | h := edcType_cases s.edcType
  · obtain ⟨f, hf⟩ := nextFragment_of_lrc h
    exact .inl ⟨f, h, hf, by simp [sendFragment, hf]⟩
  · exact .inr ⟨h, by simp [sendFragment, nextFragment_of_crc h]⟩

/-- A reply that lets the send phase go on (R193, R194, R197). -/
theorem proceed_cases (s : State) :
    (s.off < s.req.length ∧ proceed s = sendFragment s) ∨
    (s.req.length ≤ s.off ∧ proceed s = raise .protoNoResponse s) := by
  by_cases h : s.off < s.req.length
  · exact .inl ⟨h, by simp [proceed, h]⟩
  · exact .inr ⟨Nat.not_lt.1 h, by simp [proceed, h]⟩

/-- The bytes of an acknowledgement with the LRC selected are the two of R157. -/
theorem buildR_lrc (n : Bit) :
    buildR .lrc n = .ok (if n = 0 then [0x00, 0x90, 0x00, 0x90] else [0x00, 0x80, 0x00, 0x80]) := by
  revert n; decide

@[simp] theorem buildR_crc (n : Bit) : buildR .crc n = .error .capCrcUnsupported := rfl

/-- The receive loop acknowledges, fails with CRC selected, or returns the response (R190, R198). -/
theorem acknowledge_cases (chaining : Bit) (s : State) :
    (chaining = 1 ∧ s.edcType = .lrc ∧ acknowledge chaining s = issue .tRecv (.exchange
      (if s.rxseq = 0 then [0x00, 0x90, 0x00, 0x90] else [0x00, 0x80, 0x00, 0x80])) s) ∨
    (chaining = 1 ∧ s.edcType = .crc ∧ acknowledge chaining s = raise .capCrcUnsupported s) ∨
    (chaining ≠ 1 ∧ acknowledge chaining s = succeed (some (.bytes s.rsp)) s) := by
  by_cases h : chaining = 1
  · obtain ht | ht := edcType_cases s.edcType
    · exact .inl ⟨h, ht, by simp [acknowledge, h, ht, buildR_lrc]⟩
    · exact .inr (.inl ⟨h, ht, by simp [acknowledge, h, ht]⟩)
  · exact .inr (.inr ⟨h, if_neg h⟩)

/-- A received block, by the phase that waits (R205). -/
theorem receive_cases (inSend inRecv : State → State) (s : State) :
    (s.phase = .tSend ∧ receive inSend inRecv s = .next (inSend s)) ∨
    (s.phase = .tRecv ∧ receive inSend inRecv s = .next (inRecv s)) ∨
    (s.phase = .cPps ∧ receive inSend inRecv s = .next (raise .connPpsMismatch s)) ∨
    ((s.phase = .idle ∨ s.phase = .cPower) ∧ receive inSend inRecv s = .next s) := by
  cases h : s.phase <;> simp [receive, h]

end Sys2Proof.Machine
end

