-- ==== Sys2Proof/Laws/Step.lean ====
section
/-! SUPPORT. What a step does with each input, and the one way `exec` answers for the commands. -/

namespace Sys2Proof.Machine

/-- A step on a command (R35, R70, R71). -/
theorem step_command {s : State} {op : Byte} {operands : Operands} {rest : List Input}
    (h : s.pending = .command op operands :: rest) :
    step s = match decodeCommand op operands with
      | .ok i => exec i { s with pending := rest }
      | .error e => .next (acceptCommand op operands (raise (rejectCode e)) { s with pending := rest }) := by
  simp only [step, fetch, h, takeCommand]
  all_goals (cases decodeCommand op operands <;> rfl)

/-- A step on a register port word (R88, R286). -/
theorem step_regPort {s : State} {w : BitVec 16} {data : Byte} {rest : List Input}
    (h : s.pending = .regPort w data :: rest) :
    step s = match decodeRegPort w data with
      | .ok i => exec i { s with pending := rest }
      | .error _ => .next (markHostFault { s with pending := rest }) := by
  simp only [step, fetch, h, takeRegPort]
  all_goals (cases decodeRegPort w data <;> rfl)

/-- A step on the reset input (R280). -/
theorem step_reset {s : State} {rest : List Input} (h : s.pending = .reset :: rest) :
    step s = .next (resetBlock { s with pending := rest }) := by
  simp only [step, fetch, h]

/-- A step on an answer to a request that is not outstanding: it is discarded (R280). -/
theorem step_answer_other {s : State} {k : Nat} {a : Answer} {rest : List Input}
    (h : s.pending = .answer k a :: rest) (ho : ∀ rq, s.outstanding ≠ some (k, rq)) :
    step s = .next { s with pending := rest } := by
  have : awaits k { s with pending := rest } = false := by
    unfold awaits
    split
    · rename_i k' rq heq
      simp only [decide_eq_false_iff_not]
      rintro rfl
      exact ho _ heq
    · rfl
  simp only [step, fetch, h, this]
  simp

/-- A step on the answer to the outstanding request (R205). -/
theorem step_answer {s : State} {k : Nat} {rq : Request} {a : Answer} {rest : List Input}
    (h : s.pending = .answer k a :: rest) (ho : s.outstanding = some (k, rq)) :
    step s = match takeAnswer a { s with pending := rest } with
      | .run i s' => exec i s'
      | .done s' => .next s'
      | .wait f => .fault f := by
  have : awaits k { s with pending := rest } = true := by simp [awaits, ho]
  simp only [step, fetch, h, this, if_true]
  all_goals (cases takeAnswer a { s with pending := rest } <;> rfl)

/-- A step with nothing at the ports (R281, R289). -/
theorem step_empty {s : State} (h : s.pending = []) :
    step s = .fault (if s.busy then .awaitingTransport else .awaitingHost) := by
  simp only [step, fetch, h]

/-- A reply while TRANSCEIVE waits (R190, R205). -/
theorem takeAnswer_block {s : State} {r : Bytes} (h : s.phase = .tSend ∨ s.phase = .tRecv) :
    takeAnswer (.replied r) s = takeBlock r s := by
  rcases h with h | h <;> simp [takeAnswer, h]

/-- What taking a reply comes to. -/
theorem takeBlock_cases (r : Bytes) (s : State) :
    (∃ blk, parseBlock s.edcType r = .ok blk ∧
      takeBlock r s = .run (instrOfBlock blk) (emit (.rx r) (clearOutstanding s))) ∨
    (∃ e, parseBlock s.edcType r = .error e ∧
      takeBlock r s = .done (raise e (emit (.rx r) (clearOutstanding s)))) := by
  cases h : parseBlock s.edcType r with
  | ok blk => exact .inl ⟨blk, rfl, by simp [takeBlock, h]⟩
  | error e => exact .inr ⟨e, rfl, by simp [takeBlock, h]⟩

end Sys2Proof.Machine
end

