-- ==== Sys2Proof/Tests/Slice0.lean ====
section
/-! SUPPORT. Small checks of the model, with expected results from spec 95_test_vectors (named by the vector's id) or worked
out by hand from the rule named, and a witness for the hypotheses of every obligation that has some. -/

namespace Sys2Proof.Tests

open Sys2Proof.Machine Sys2Proof.Spec

/-! ### Small states -/

/-- The reset state with these inputs at its ports. -/
def fresh (inputs : List Input) : State := { State.reset with pending := inputs }

/-- A transport error detail. -/
def detail0 : TransportErr := ⟨0, rfl⟩

/-- Connected and IDLE. -/
def idleConnected (seq : Bit) (inputs : List Input) : State := { fresh inputs with conn := true, seq := seq }

/-- A command waits in a phase for the answer to request 0. -/
def waiting (phase : Phase) (rq : Request) (inputs : List Input) : State :=
  { fresh inputs with busy := true, phase := phase, outstanding := some (0, rq), reqCount := 1 }

/-- A TRANSCEIVE waits, `off` bytes of its request sent and `rsp` received. -/
def exchanging (phase : Phase) (req : Bytes) (off : Nat) (rsp : Bytes) (inputs : List Input) : State :=
  { waiting phase (.exchange (frameBytes 0 0 [])) inputs with
    conn := true, seq := 1, req := req, off := off, rsp := rsp }

/-- With CRC selected. -/
def withCrc (s : State) : State := { s with edcType := .crc }

/-- The record a step delivered. -/
def recordOf (o : Result) : Option ResultRecord :=
  match o with
  | .next t => t.results.getLast?
  | .fault _ => none
  | .refused _ => none

/-- The next state, if there is one. -/
def nextOf (o : Result) : Option State :=
  match o with
  | .next t => some t
  | .fault _ => none
  | .refused _ => none

/-- The record of status OK with this value. -/
def okRecord (v : Value) : Option ResultRecord := some ⟨.ok, 0x00, none, some v⟩

/-- The record of status ERROR with this code. -/
def errRecord (code : Byte) : Option ResultRecord := some ⟨.error, code, none, none⟩

/-! ### Well-formedness (R72, R78) -/

theorem test_wf_pcbI_254 : (Instr.pcbI 0 0 0 0 (List.replicate 254 0)).wf = true := by decide +kernel
theorem test_wf_refuses_long_pcbI : (Instr.pcbI 0 0 0 0 (List.replicate 255 0)).wf = false := by decide +kernel
theorem test_wf_refuses_long_pcbS : (Instr.pcbS 0 0 (List.replicate 255 0)).wf = false := by decide +kernel

/-! ### Decoding, by words written out from R70, R88 and R73 to R75 -/

theorem test_decode_edcCompute :
    decode (.command 0x01 (.bytesEnd [0xA5, 0x5A] 2)) = .ok (.edcCompute [0xA5, 0x5A] 2) := by decide
theorem test_decode_edcLength : decode (.command 0x02 .none) = .ok .edcLength := by decide
theorem test_decode_apduEncode :
    decode (.command 0x10 (.apdu 0xFF 2 3 4 [1] 5)) = .ok (.apduEncode ⟨0xFF, 2, 3, 4, [1], 5⟩) := by decide
theorem test_decode_apduDecode : decode (.command 0x11 (.bytes [1, 2, 3])) = .ok (.apduDecode [1, 2, 3]) := by decide
theorem test_decode_rapduEncode :
    decode (.command 0x12 (.rapdu [1] 0x6A 0x82)) = .ok (.rapduEncode ⟨[1], 0x6A, 0x82⟩) := by decide
theorem test_decode_rapduDecode : decode (.command 0x13 (.bytes [0x90, 0])) = .ok (.rapduDecode [0x90, 0]) := by decide
theorem test_decode_apduChain :
    decode (.command 0x14 (.apduSeg 1 2 3 4 [5] 6 7)) = .ok (.apduChain ⟨1, 2, 3, 4, [5], 6⟩ 7) := by decide
theorem test_decode_frameBuildI :
    decode (.command 0x20 (.frameI 0 1 [0xAA])) = .ok (.frameBuildI 0 1 [0xAA]) := by decide
theorem test_decode_frameBuildR : decode (.command 0x21 (.ackseq 1)) = .ok (.frameBuildR 1) := by decide
theorem test_decode_frameParse : decode (.command 0x22 (.bytes [0])) = .ok (.frameParse [0]) := by decide
theorem test_decode_connect : decode (.command 0x30 .none) = .ok .connect := by decide
theorem test_decode_transceive : decode (.command 0x31 (.bytes [0, 0xA4])) = .ok (.transceive [0, 0xA4]) := by decide
theorem test_decode_disconnect : decode (.command 0x32 .none) = .ok .disconnect := by decide
/-- W = 0, IDX = 0x80: the word of vector R5. -/
theorem test_decode_regRead : decode (.regPort 0b0_0000000_10000000 0) = .ok (.regRead 0x80) := by decide
/-- W = 1, IDX = 0x02: the word of vector R6. -/
theorem test_decode_regWrite : decode (.regPort 0b1_0000000_00000010 0xFF) = .ok (.regWrite 0x02 0xFF) := by decide
/-- PCB `0 1 0 00001`: sequence 1, chaining 0. -/
theorem test_decode_pcbI : decode (.frame [0, 0b0_1_0_00001, 1, 0xAA, 0xEA]) = .ok (.pcbI 0 1 0 1 [0xAA]) := by decide
/-- PCB `11 000011`: the block of vector B30. -/
theorem test_decode_pcbS : decode (.frame [0, 0b11_000011, 1, 0x01, 0xC3]) = .ok (.pcbS 0 3 [0x01]) := by decide
/-- PCB `10 1 0 11 10`: bit 5 set, sequence 0, bits 3:2 set, OtherError. -/
theorem test_decode_pcbR : decode (.frame [0, 0b10_1_0_11_10, 0, 0xAE]) = .ok (.pcbR 0 1 0 3 .otherError) := by decide

theorem test_decode_refuses_reserved_opcodes :
    (decode (.command 0x00 .none), decode (.command 0x15 .none), decode (.command 0xFF .none)) =
      (.error .reservedOpcode, .error .reservedOpcode, .error .reservedOpcode) := by decide
theorem test_decode_refuses_wide_operands :
    (decode (.command 0x20 (.frameI 2 0 [])), decode (.command 0x12 (.rapdu [] 0 256))) =
      (.error .operandRange, .error .operandRange) := by decide
theorem test_decode_refuses_other_operands : decode (.command 0x30 (.bytes [])) = .error .operandShape := by decide

/-- The opcode table and the opcodes' codes are the same table. -/
theorem test_opcode_codes : opcodeTable.all (fun r => decide (r.2.code = r.1)) = true := by decide

/-- The opcode table defines the opcodes of R70 and no other. -/
theorem test_opcodes_defined : opcodeTable.map Prod.fst = definedOpcodes := by decide

theorem test_table_word_pcbR : decodeTableWord 8 0x90 = some (.pcbR 0 0 1 0 .noError) := by decide
theorem test_table_word_regWrite : decodeTableWord 16 0x8002 = some (.regWrite 0x02 0) := by decide
theorem test_fetch_word_runs : recordOf (step (State.reset.withFetchWord 8 0x02)) = okRecord (.byte 1) := by decide

/-! ### The commands -/

/-- Vector K6. -/
theorem test_edcCompute_stops_at_end :
    recordOf (exec (.edcCompute [0xA5, 0x5A, 0xFF] 2) (fresh [])) = okRecord (.byte 0xFF) := by decide
/-- Vector K11: the range check comes before the capability. -/
theorem test_edcCompute_range_first :
    recordOf (exec (.edcCompute [0x01, 0x02] 3) (withCrc (fresh []))) = errRecord 0x14 := by decide
/-- Vectors K13 and K14. -/
theorem test_edcLength : (recordOf (exec .edcLength (fresh [])), recordOf (exec .edcLength (withCrc (fresh [])))) =
    (okRecord (.byte 1), okRecord (.byte 2)) := by decide
/-- Vector A13, the source's fixture S1. -/
theorem test_apduEncode_fixture :
    recordOf (exec (.apduEncode ⟨1, 2, 3, 4, [1, 2, 3], 5⟩) (fresh [])) =
      okRecord (.bytes [0x01, 0x02, 0x03, 0x04, 0x03, 0x01, 0x02, 0x03, 0x05]) := by decide
/-- Vector A15: case 4E, one form for both length fields. -/
theorem test_apduEncode_case4E :
    recordOf (exec (.apduEncode ⟨1, 2, 3, 4, [1, 2, 3], 257⟩) (fresh [])) =
      okRecord (.bytes [0x01, 0x02, 0x03, 0x04, 0x00, 0x00, 0x03, 0x01, 0x02, 0x03, 0x01, 0x01]) := by decide
/-- Vector A38. -/
theorem test_apduDecode_case4S :
    recordOf (exec (.apduDecode [0x01, 0x02, 0x03, 0x04, 0x01, 0xAA, 0x05]) (fresh [])) =
      okRecord (.apdu ⟨1, 2, 3, 4, [0xAA], 5⟩) := by decide
/-- Vector A42: one Le byte in extended form. -/
theorem test_apduDecode_refuses_half_le :
    recordOf (exec (.apduDecode [0x01, 0x02, 0x03, 0x04, 0x00, 0x00, 0x01, 0xAA, 0x00]) (fresh [])) =
      errRecord 0x13 := by decide
/-- Vector A55. -/
theorem test_rapduEncode :
    recordOf (exec (.rapduEncode ⟨[0x01, 0x02], 0x90, 0x00⟩) (fresh [])) =
      okRecord (.bytes [0x01, 0x02, 0x90, 0x00]) := by decide
/-- Vector A50. -/
theorem test_rapduDecode :
    recordOf (exec (.rapduDecode [0xAA, 0xBB, 0x90, 0x00]) (fresh [])) =
      okRecord (.rapdu ⟨[0xAA, 0xBB], 0x90, 0x00⟩) := by decide
/-- Vector A52. -/
theorem test_rapduDecode_refuses_one_byte :
    recordOf (exec (.rapduDecode [0x90]) (fresh [])) = errRecord 0x13 := by decide
/-- Vector C3: an exact multiple, and a CLA that has the chaining bit. -/
theorem test_apduChain_exact :
    recordOf (exec (.apduChain ⟨0x10, 0xDB, 0x3F, 0xFF, [1, 2, 3, 4, 5, 6], 0⟩ 3) (fresh [])) =
      okRecord (.apdus [⟨0x10, 0xDB, 0x3F, 0xFF, [1, 2, 3], 0⟩, ⟨0x10, 0xDB, 0x3F, 0xFF, [4, 5, 6], 0⟩]) := by decide
/-- Vector C2's data and segment length with an `ne`, which only the last segment keeps. -/
theorem test_apduChain_ne :
    recordOf (exec (.apduChain ⟨0x00, 0x2A, 0x80, 0x86, [0, 1, 2, 3, 4, 5, 6, 7, 8, 9], 7⟩ 4) (fresh [])) =
      okRecord (.apdus [⟨0x10, 0x2A, 0x80, 0x86, [0, 1, 2, 3], 0⟩, ⟨0x10, 0x2A, 0x80, 0x86, [4, 5, 6, 7], 0⟩,
        ⟨0x00, 0x2A, 0x80, 0x86, [8, 9], 7⟩]) := by decide
/-- Vector B6. -/
theorem test_frameBuildI :
    recordOf (exec (.frameBuildI 0 1 [0xAA, 0xBB]) (fresh [])) =
      okRecord (.bytes [0x00, 0x20, 0x02, 0xAA, 0xBB, 0x33]) := by decide
/-- Vector B11: the length check comes before the capability. -/
theorem test_frameBuildI_length_first :
    recordOf (exec (.frameBuildI 0 0 (List.replicate 255 0)) (withCrc (fresh []))) = errRecord 0x11 := by
  decide +kernel
/-- Vectors B13 and B14. -/
theorem test_frameBuildR :
    (recordOf (exec (.frameBuildR 0) (fresh [])), recordOf (exec (.frameBuildR 1) (fresh []))) =
      (okRecord (.bytes [0x00, 0x90, 0x00, 0x90]), okRecord (.bytes [0x00, 0x80, 0x00, 0x80])) := by decide
/-- Vector B28. -/
theorem test_frameParse_otherError :
    recordOf (exec (.frameParse [0x00, 0x92, 0x00, 0x92]) (fresh [])) =
      okRecord (.block (.r 0x00 0x92 [] [0x92] 1 .otherError)) := by decide
/-- Vectors B34, B36, B38 and B33. -/
theorem test_frameParse_errors :
    (recordOf (exec (.frameParse [0x00, 0x92, 0x01, 0xAA, 0x39]) (fresh [])),
      recordOf (exec (.frameParse [0x00, 0x00, 0x02, 0x90, 0x00, 0x92, 0x00]) (fresh [])),
      recordOf (exec (.frameParse [0x00, 0x00, 0x02, 0x01, 0x02]) (fresh [])),
      recordOf (exec (.frameParse [0x00, 0x93, 0x00, 0x93]) (fresh []))) =
      (errRecord 0x22, errRecord 0x20, errRecord 0x23, errRecord 0x24) := by decide

/-! ### The protocol -/

/-- Vector T1: the command's step issues `PowerOn()`. -/
theorem test_connect_powers_on :
    (nextOf (exec .connect (fresh []))).map (fun t => (t.trace, t.phase, t.outstanding, t.busy)) =
      some ([.cmd 0x30 .none, .powerOn], .cPower, some (0, .powerOn), true) := by decide
/-- Vector T6. -/
theorem test_connect_while_connected :
    (nextOf (exec .connect (idleConnected 1 []))).map (fun t => (t.err, t.conn, t.seq)) =
      some (0x41, true, 1) := by decide
/-- Vector T1: the answer `Ok` sends the PPS request. -/
theorem test_power_on_answered :
    (nextOf (step { waiting .cPower .powerOn [.answer 0 .powered] with autoNeg := false })).map (fun t => (t.trace, t.phase)) =
      some ([.tx [0xFF, 0x01, 0xFE]], .cPps) := by decide
/-- Vector T2: with `AUTO_NEG` the same answer connects. -/
theorem test_power_on_auto_neg :
    (nextOf (step { waiting .cPower .powerOn [.answer 0 .powered] with autoNeg := true, seq := 1 })).map
      (fun t => (t.conn, t.seq, t.phase, t.err)) = some (true, 0, .idle, 0x00) := by decide
/-- Vector T4: one byte after the exact echo. -/
theorem test_pps_mismatch :
    (nextOf (step (waiting .cPps (.exchange Config.ppsRequest) [.answer 0 (.replied [0xFF, 0x01, 0xFE, 0x00])]))).map
      (fun t => (t.conn, t.err)) = some (false, 0x40) := by decide
/-- Vector T5. -/
theorem test_transport_error :
    recordOf (step (waiting .cPower .powerOn [.answer 0 (.err detail0)])) =
      some ⟨.error, 0x60, some detail0, none⟩ := by decide
/-- Vector T10: the fragment that is sent. -/
theorem test_transceive_sends :
    (nextOf (exec (.transceive [0x00, 0xA4, 0x04, 0x00, 0x00]) (idleConnected 0 []))).map
      (fun t => (t.trace.getLast?, t.seq, t.phase)) =
      some (some (.tx [0x00, 0x00, 0x05, 0x00, 0xA4, 0x04, 0x00, 0x00, 0xA5]), 1, .tSend) := by decide
/-- Vector T18: the first of two fragments, `0020FE`, 254 bytes `AA`, `DE`. -/
theorem test_transceive_chains :
    (nextOf (exec (.transceive (List.replicate 255 0xAA)) (idleConnected 0 []))).map
      (fun t => (t.trace.getLast?, t.off)) =
      some (some (.tx ([0x00, 0x20, 0xFE] ++ List.replicate 254 0xAA ++ [0xDE])), 254) := by
  decide +kernel
/-- Vector T20. -/
theorem test_disconnect :
    (nextOf (exec .disconnect (idleConnected 1 []))).map (fun t => (t.conn, t.seq, t.err)) =
      some (false, 0, 0x00) := by decide
/-- Vector T13: a chained I-block with sequence bit 0 is acknowledged by `00900090`. -/
theorem test_pcbI_acknowledged :
    (nextOf (exec (.pcbI 0 0 1 0 [0xAA, 0xBB]) (exchanging .tSend [1] 1 [] []))).map
      (fun t => (t.trace, t.phase, t.seq)) = some ([.tx [0x00, 0x90, 0x00, 0x90]], .tRecv, 1) := by decide
/-- Program P5: an I-block before the last fragment. -/
theorem test_pcbI_underflow :
    recordOf (exec (.pcbI 0 0 0 0 [0x90, 0x00]) (exchanging .tSend [1, 2] 1 [] [])) = errRecord 0x30 := by decide
/-- Vector T10: an S-block in answer to the last fragment is logged and the command fails. -/
theorem test_pcbS_logged :
    (nextOf (exec (.pcbS 0 3 [0x01]) (exchanging .tSend [1] 1 [] []))).map (fun t => (t.trace.head?, t.err)) =
      some (some (.sblock 0xC3 [0x01]), 0x34) := by decide
/-- Program P6: an S-block before the last fragment lets the next one go, here `00 40 01 02 43`. -/
theorem test_pcbS_goes_on :
    (nextOf (exec (.pcbS 0 3 [0x01]) (exchanging .tSend [1, 2] 1 [] []))).map
      (fun t => (t.trace.getLast?, t.seq)) = some (some (.tx [0x00, 0x40, 0x01, 0x02, 0x43]), 0) := by decide
/-- Program P4. -/
theorem test_pcbR_edcError :
    (nextOf (exec (.pcbR 0 0 1 0 .edcError) (exchanging .tSend [1, 2] 1 [] []))).map (fun t => (t.err, t.conn, t.seq)) =
      some (0x32, true, 1) := by decide
/-- Vector T13: an R-block in the receive phase. -/
theorem test_pcbR_in_receive_phase :
    recordOf (exec (.pcbR 0 0 1 0 .noError) (exchanging .tRecv [1] 1 [0xAA] [])) = errRecord 0x31 := by decide
/-- Vector T12: a reply with a wrong LRC ends the command and keeps the connection and `SEQ`. -/
theorem test_bad_reply :
    (nextOf (step (exchanging .tSend [1] 1 [] [.answer 0 (.replied [0x00, 0x00, 0x02, 0x90, 0x00, 0x93])]))).map
      (fun t => (t.err, t.conn, t.seq)) = some (0x20, true, 1) := by decide

/-! ### The register port, reset and the host's faults -/

/-- Vector R11: `CONN = 1`, `BUSY = 1`, `SEQ = 1`. -/
theorem test_regRead_status :
    (nextOf (exec (.regRead 0x00) (exchanging .tSend [1, 2] 1 [] []))).map (·.regReads) = some [0x07] := by decide
/-- Vector R11: `PHASE` is `T_SEND`. -/
theorem test_regRead_phase :
    (nextOf (exec (.regRead 0x03) (exchanging .tSend [1, 2] 1 [] []))).map (·.regReads) = some [0x03] := by decide
/-- Vector R6. -/
theorem test_regWrite_cfg :
    (nextOf (exec (.regWrite 0x02 0xFF) (fresh []))).map (·.edcType) = some .crc := by decide
/-- Vector R9. -/
theorem test_regWrite_busy :
    (nextOf (exec (.regWrite 0x02 0x01) (exchanging .tSend [1] 1 [] []))).map (fun t => (t.edcType, t.hostFault)) =
      some (.lrc, true) := by decide
/-- Vector R10. -/
theorem test_reserved_word_bits :
    (nextOf (step (fresh [.regPort 0x0100 0]))).map (·.hostFault) = some true := by decide
/-- Vector X1. -/
theorem test_reserved_opcode :
    (nextOf (step (idleConnected 1 [.command 0x00 .none]))).map (fun t => (t.err, t.conn, t.seq)) =
      some (0x15, true, 1) := by decide
/-- Vector X3. -/
theorem test_command_while_busy :
    (nextOf (step (exchanging .tSend [1] 1 [] [.command 0x32 .none]))).map (fun t => (t.hostFault, t.conn, t.phase)) =
      some (true, true, .tSend) := by decide
/-- R280: reset during a TRANSCEIVE abandons the request. -/
theorem test_reset_abandons :
    (nextOf (step (exchanging .tSend [1] 1 [] [.reset, .answer 0 (.replied [])]))).map
      (fun t => (t.conn, t.phase, t.outstanding, t.trace)) = some (false, .idle, none, [.reset]) := by decide
/-- R280: the answer to an abandoned request has no effect on the request that follows. -/
theorem test_late_answer_discarded :
    (nextOf (step { waiting .cPower .powerOn [.answer 0 (.err detail0)] with
      outstanding := some (1, .powerOn), reqCount := 2 })).map (fun t => (t.phase, t.err)) =
      some (.cPower, 0x00) := by decide

/-! ### Text (R89, R90) -/

theorem test_assemble_connect : assemble "CONNECT".toList = some (.words (.command 0x30 .none)) := by decide
theorem test_assemble_edcCompute :
    assemble "EDC_COMPUTE bytes=FF01 end=2".toList = some (.words (.command 0x01 (.bytesEnd [0xFF, 0x01] 2))) := by
  decide
theorem test_assemble_regWrite :
    assemble "REG_WRITE idx=0x02 value=0xFE".toList = some (.words (.regPort 0x8002 0xFE)) := by decide
/-- The defaults of `data`, `ne` and `seg`. -/
theorem test_assemble_apduChain :
    assemble "APDU_CHAIN cla=0 ins=1 p1=2 p2=3".toList = some (.words (.command 0x14 (.apduSeg 0 1 2 3 [] 0 255))) := by
  decide
theorem test_assemble_empty_bytes :
    assemble "TRANSCEIVE req=[]".toList = some (.words (.command 0x31 (.bytes []))) := by decide
/-- Every other operand must be written. -/
theorem test_assemble_missing_operand : assemble "FRAME_BUILD_R".toList = none := by decide
/-- SEND_APDU goes on from APDU_ENCODE to TRANSCEIVE, and stops at an error. -/
theorem test_pseudo_sendApdu :
    (PseudoPhase.next (.encoding []) ⟨.ok, 0, none, some (.bytes [1])⟩, PseudoPhase.next (.encoding []) ⟨.error, 0x12, none, none⟩) =
      (.issue (.transceive [1]) (.transceiving []), .failed 0x12) := by decide

/-! ### Witnesses: concrete states and operands that meet the hypotheses of each obligation, with the boundary values of its
clauses. An obligation whose only hypothesis is `busy = false` is met by `witness_idle`, and one whose only hypothesis is a
step to a next state by `witness_step_idle`; the clauses "longer than `BUF_CAP`" are met by `witness_Overlong`. -/

theorem witness_idle : State.reset.busy = false ∧ (withCrc State.reset).busy = false := by decide
theorem witness_connected : (idleConnected 1 []).busy = false ∧ (idleConnected 1 []).conn = true := by decide

theorem witness_DecodeOfEncode :
    (Instr.pcbI 0xFF 1 1 0x1F (List.replicate 254 0xFF)).wf = true ∧ (Instr.pcbS 0 0x3F []).wf = true := by
  decide +kernel
theorem witness_EncodeOfDecoded :
    decodeCommand 0x12 (.rapdu [] 255 0) = .ok (.rapduEncode ⟨[], 0xFF, 0⟩) ∧
    decodeCommand 0x21 (.ackseq 1) = .ok (.frameBuildR 1) := by decide
theorem witness_Reserialised :
    parseBlock .lrc [0x01, 0xBC, 0x00, 0xBD] = .ok (.r 0x01 0xBC [] [0xBD] 1 .noError) := by decide
theorem witness_ParseOfBuilt : (List.replicate 254 (0 : Byte)).length ≤ 254 := by decide +kernel
theorem witness_StepExecutes_command :
    (fresh [.command 0x31 (.bytes [1])]).pending = .command 0x31 (.bytes [1]) :: [] ∧
    decode (.command 0x31 (.bytes [1])) = .ok (.transceive [1]) := by decide
theorem witness_StepExecutes_regPort :
    (exchanging .tSend [1] 1 [] [.regPort 0x0003 0]).pending = .regPort 0x0003 0 :: [] ∧
    decode (.regPort 0x0003 0) = .ok (.regRead 0x03) := by decide

/-- A state that waits for a reply to request 0, which is next; the phase is `T_SEND` or `T_RECV`. -/
def replied (phase : Phase) (r : Bytes) : State := exchanging phase [1] 1 [] [.answer 0 (.replied r)]

theorem witness_StepExecutes_block :
    (replied .tRecv [0, 0, 0, 0]).pending = .answer 0 (.replied [0, 0, 0, 0]) :: [] ∧
    (replied .tRecv [0, 0, 0, 0]).outstanding = some (0, .exchange (frameBytes 0 0 [])) ∧
    (replied .tRecv [0, 0, 0, 0]).phase = .tRecv ∧ (replied .tRecv [0, 0, 0, 0]).edcType = .lrc ∧
    decode (.frame [0, 0, 0, 0]) = .ok (.pcbI 0 0 0 0 []) := by decide
theorem witness_RefusedReply :
    (replied .tSend [0x00, 0x93, 0x00, 0x93]).pending = .answer 0 (.replied [0x00, 0x93, 0x00, 0x93]) :: [] ∧
    (replied .tSend [0x00, 0x93, 0x00, 0x93]).outstanding = some (0, .exchange (frameBytes 0 0 [])) ∧
    (replied .tSend [0x00, 0x93, 0x00, 0x93]).phase = .tSend ∧
    (replied .tSend [0x00, 0x93, 0x00, 0x93]).edcType = .lrc ∧ parseError [0x00, 0x93, 0x00, 0x93] = some 0x24 := by
  decide
/-- Each refusal of `parseError` at a sequence that meets it alone (vectors B40, B38, B36, B35, B34, B33). -/
theorem witness_parseError :
    (parseError [0x00], parseError [0x00, 0x00, 0x02, 0x01, 0x02], parseError [0x00, 0x00, 0x02, 0x90, 0x00, 0x92, 0x00],
      parseError [0x00, 0x00, 0x02, 0x90, 0x00, 0x93], parseError [0x00, 0x92, 0x01, 0xAA, 0x39],
      parseError [0x00, 0x93, 0x00, 0x93]) =
    (some 0x23, some 0x23, some 0x20, some 0x20, some 0x22, some 0x24) := by decide
/-- Vector B42: LEN = 255. -/
theorem witness_parseError_len255 :
    parseError ([0x00, 0x00, 0xFF] ++ List.replicate 255 0x00 ++ [0xFF]) = some 0x25 := by decide +kernel
/-- The PCB values at the edges of the three kinds are accepted. -/
theorem witness_parseError_none :
    (parseError [0x00, 0x7F, 0x00, 0x7F], parseError [0x00, 0x80, 0x00, 0x80], parseError [0x00, 0xBE, 0x00, 0xBE],
      parseError [0x00, 0xC0, 0x00, 0xC0]) = (none, none, none, none) := by decide
theorem witness_ReservedOpcode :
    (fresh [.command 0x33 .none]).pending = .command 0x33 .none :: [] ∧ (fresh [.command 0x33 .none]).busy = false ∧
    (0x33 : Byte) ∉ definedOpcodes ∧ (0x00 : Byte) ∉ definedOpcodes ∧ (0x15 : Byte) ∉ definedOpcodes := by decide
theorem witness_OperandOutsideRange :
    (fresh [.command 0x21 (.ackseq 2)]).pending = .command 0x21 (.ackseq 2) :: [] ∧
    (fresh [.command 0x21 (.ackseq 2)]).busy = false ∧ OutOfRange 0x21 (.ackseq 2) ∧ OutOfRange 0x20 (.frameI 1 2 []) ∧
    OutOfRange 0x10 (.apdu 255 256 0 0 [] 0) ∧ OutOfRange 0x14 (.apduSeg 0 0 0 256 [] 0 1) ∧
    OutOfRange 0x12 (.rapdu [] 256 0) := by simp [OutOfRange, fresh, State.reset]
theorem witness_Overlong (b : Bytes) (h : b = List.replicate (Config.bufCap + 1) 0) :
    State.reset.busy = false ∧ bytesOperand (.transceive b) = some (b, 0x31, .bytes b) ∧ Config.bufCap < b.length ∧
    bytesOperand (.edcCompute b 0) = some (b, 0x01, .bytesEnd b 0) := by
  have : b.length = Config.bufCap + 1 := by rw [h, List.length_replicate]
  exact ⟨rfl, rfl, by omega, rfl⟩
theorem witness_CommandWhileBusy :
    (waiting .cPower .powerOn [.command 0x00 (.ackseq 9)]).pending = .command 0x00 (.ackseq 9) :: [] ∧
    (waiting .cPower .powerOn [.command 0x00 (.ackseq 9)]).busy = true := by decide
theorem witness_RegisterPortViolation :
    (fresh [.regPort 0x0100 0]).pending = .regPort 0x0100 0 :: [] ∧ (0x0100 : BitVec 16).toNat / 256 % 128 ≠ 0 ∧
    (0x4000 : BitVec 16).toNat / 256 % 128 ≠ 0 ∧ (waiting .cPower .powerOn [.regPort 0x8002 1]).busy = true ∧
    (waiting .cPower .powerOn [.regPort 0x8002 1]).pending = .regPort 0x8002 1 :: [] := by decide
theorem witness_ResetInput :
    (exchanging .tSend [1] 1 [] [.reset]).busy = true ∧
    (exchanging .tSend [1] 1 [] [.reset]).pending = .reset :: [] := by decide

/-- CONNECT waits for `PowerOn()`, the host resets the block, and then the answer comes. -/
def abandoning : State := waiting .cPower .powerOn [.reset, .answer 0 .powered]

theorem witness_abandoning_inv : Inv abandoning where
  busyIff := by decide
  request := ⟨0, rfl⟩
  numbered := by intro k rq h; injection h with h; injection h with h1 _; subst h1; decide
  connecting := fun _ => rfl
  transceiving := by intro h; simp [abandoning, waiting] at h
  received := by intro h; simp [abandoning, waiting] at h
  errListed := by decide
theorem witness_AnswerToAbandoned :
    abandoning.outstanding = some (0, .powerOn) ∧ abandoning.pending = .reset :: [.answer 0 .powered] ∧
    step abandoning = .next (resetBlock { abandoning with pending := [.answer 0 .powered] }) ∧
    core.run 0 (resetBlock { abandoning with pending := [.answer 0 .powered] }) =
      .next (resetBlock { abandoning with pending := [.answer 0 .powered] }) ∧
    (resetBlock { abandoning with pending := [.answer 0 .powered] }).pending = .answer 0 .powered :: [] :=
  ⟨rfl, rfl, rfl, rfl, rfl⟩
theorem witness_SilentTransport :
    (waiting .cPower .powerOn []).busy = true ∧ (waiting .cPower .powerOn []).pending = [] ∧
    (waiting .cPower .powerOn [.command 0x02 .none]).pending = .command 0x02 .none :: [] ∧
    Input.command 0x02 .none ≠ .reset ∧ (∀ k a, Input.command 0x02 .none ≠ .answer k a) :=
  ⟨rfl, rfl, rfl, by decide, fun _ _ h => by cases h⟩
theorem witness_LrcLaws : 1 < ([0xAA, 0x55] : Bytes).length ∧
    parseBlock .lrc [0x00, 0x00, 0x00, 0x00] = .ok (.i 0x00 0x00 [] [0x00] 0 0) := by decide
/-- `end` one beyond the buffer, at its end, and with CRC selected. -/
theorem witness_EdcCompute : (fresh []).busy = false ∧ ([0x01, 0x02] : Bytes).length ≤ Config.bufCap ∧
    ([0x01, 0x02] : Bytes).length < 3 ∧ ¬ ([0x01, 0x02] : Bytes).length < 2 ∧ (withCrc (fresh [])).edcType = .crc :=
  ⟨rfl, le_bufCap (by decide), by decide, by decide, rfl⟩

/-- An APDU with so many data bytes and this `ne`. -/
def apduOf (nc ne : Nat) : CommandApdu := ⟨0x00, 0xA4, 0x04, 0x00, List.replicate nc 0, ne⟩

theorem validApdu_apduOf {nc ne : Nat} (h : nc ≤ 65535) (h' : ne ≤ 65536) : validApdu (apduOf nc ne) :=
  ⟨Nat.le_trans (Nat.le_of_eq List.length_replicate) h, h'⟩

/-- Valid APDUs at the boundaries of the seven forms (R81), the largest among them: for ApduEncodeResult,
ApduEncodingLengths and ApduRoundTrip. -/
theorem witness_ApduEncode : (fresh []).busy = false ∧ validApdu (apduOf 0 0) ∧ validApdu (apduOf 0 256) ∧
    validApdu (apduOf 0 257) ∧ validApdu (apduOf 255 0) ∧ validApdu (apduOf 256 0) ∧ validApdu (apduOf 255 256) ∧
    validApdu (apduOf 1 257) ∧ validApdu (apduOf 65535 65536) := by
  refine ⟨rfl, ?_, ?_, ?_, ?_, ?_, ?_, ?_, ?_⟩ <;> exact validApdu_apduOf (by decide) (by decide)
theorem witness_ApduEncode_invalid_ne : (fresh []).busy = false ∧ (apduOf 0 65537).data.length ≤ Config.bufCap ∧
    65536 < (apduOf 0 65537).ne := ⟨rfl, Nat.zero_le _, by decide⟩
theorem witness_ApduEncode_invalid_data (a : CommandApdu) (h : a = apduOf 65536 0) :
    ¬ Config.bufCap < a.data.length ∧ 65535 < a.data.length := by
  have h2 : a.data.length = 65536 := by subst h; exact List.length_replicate
  exact ⟨Nat.not_lt.2 (le_bufCap (by omega)), by omega⟩
/-- Buffers APDU_DECODE accepts: a short form, and vector A33, which is not the shortest form of its value. -/
theorem witness_ApduDecode : (fresh []).busy = false ∧ ([1, 2, 3, 4, 1, 0xAA, 5] : Bytes).length ≤ Config.bufCap ∧
    ApduBuffer [1, 2, 3, 4, 1, 0xAA, 5] ⟨1, 2, 3, 4, [0xAA], 5⟩ ∧ ApduBuffer [1, 2, 3, 4, 0, 0, 5] ⟨1, 2, 3, 4, [], 5⟩ :=
  ⟨rfl, le_bufCap (by decide), .case4S 1 2 3 4 1 5 [0xAA] rfl (by decide), .case2E 1 2 3 4 0 5⟩
/-- A buffer no form has (vector A30). -/
theorem witness_ApduDecode_refused : ¬ ∃ a, ApduBuffer [1, 2, 3] a := by rintro ⟨a, h⟩; cases h
theorem witness_RapduDecode : (fresh []).busy = false ∧ ([] : Bytes).length + 2 ≤ Config.bufCap ∧
    ([0x90] : Bytes).length < 2 := ⟨rfl, le_bufCap (by decide), by decide⟩
/-- Bodies at the two sides of the capacity. -/
theorem witness_RapduEncode (b c : Bytes) (hb : b = List.replicate (Config.bufCap - 1) 0)
    (hc : c = List.replicate (Config.bufCap - 2) 0) :
    Config.bufCap < b.length + 2 ∧ ¬ Config.bufCap < c.length + 2 := by
  have h2 : 2 ≤ Config.bufCap := le_bufCap (by decide)
  have h3 : b.length = Config.bufCap - 1 := by rw [hb, List.length_replicate]
  have h4 : c.length = Config.bufCap - 2 := by rw [hc, List.length_replicate]
  omega
/-- Segment lengths at the two sides of the legal range. -/
theorem witness_ApduChain : (fresh []).busy = false ∧ validApdu (apduOf 256 256) ∧ ((0 : Nat) = 0 ∨ 65535 < 0) ∧
    ¬ (65535 = 0 ∨ 65535 < 65535) ∧ (65536 = 0 ∨ 65535 < 65536) :=
  ⟨rfl, validApdu_apduOf (by decide) (by decide), by decide, by decide, by decide⟩
theorem witness_ChainSegments : 0 < 1 ∧ (apduOf 2 0).data.length = 2 := by decide
/-- INF lengths at the two sides of the bound. -/
theorem witness_FrameBuildI : (fresh []).busy = false ∧ (List.replicate 255 (0 : Byte)).length ≤ Config.bufCap ∧
    254 < (List.replicate 255 (0 : Byte)).length ∧ ¬ 254 < (List.replicate 254 (0 : Byte)).length :=
  ⟨rfl, le_bufCap (by decide +kernel), by decide +kernel, by decide +kernel⟩
theorem witness_FrameParse : (fresh []).busy = false ∧ ([0x00, 0x90, 0x00, 0x90] : Bytes).length ≤ Config.bufCap :=
  ⟨rfl, le_bufCap (by decide)⟩
theorem witness_PowerOnAnswered :
    (waiting .cPower .powerOn [.answer 0 .powered]).busy = true ∧
    (waiting .cPower .powerOn [.answer 0 .powered]).phase = .cPower ∧
    (waiting .cPower .powerOn [.answer 0 .powered]).outstanding = some (0, .powerOn) ∧
    (waiting .cPower .powerOn [.answer 0 .powered]).pending = .answer 0 .powered :: [] := by decide
theorem witness_PpsEcho :
    (waiting .cPps (.exchange Config.ppsRequest) [.answer 0 (.replied [0xFF, 0x01])]).phase = .cPps ∧
    (waiting .cPps (.exchange Config.ppsRequest) [.answer 0 (.replied [0xFF, 0x01])]).outstanding =
      some (0, .exchange Config.ppsRequest) ∧
    (waiting .cPps (.exchange Config.ppsRequest) [.answer 0 (.replied [0xFF, 0x01])]).pending =
      .answer 0 (.replied [0xFF, 0x01]) :: [] := by decide
theorem witness_TransportError :
    (waiting .cPower .powerOn [.answer 0 (.err detail0)]).phase ≠ .idle ∧
    (waiting .cPower .powerOn [.answer 0 (.err detail0)]).outstanding = some (0, .powerOn) ∧
    (waiting .cPower .powerOn [.answer 0 (.err detail0)]).pending = .answer 0 (.err detail0) :: [] := by decide
/-- A request of one byte while Connected, while Disconnected, and with CRC selected. -/
theorem witness_Transceive : (idleConnected 0 []).busy = false ∧ ([0x00] : Bytes).length ≤ Config.bufCap ∧
    (idleConnected 0 []).conn = true ∧ (fresh []).conn = false ∧ (withCrc (idleConnected 0 [])).edcType = .crc :=
  ⟨rfl, le_bufCap (by decide), rfl, rfl, rfl⟩
/-- T_SEND with the last fragment out, and with one byte left: for the three blocks in the send phase. -/
theorem witness_sendPhase : (exchanging .tSend [1] 1 [] []).busy = true ∧ (exchanging .tSend [1] 1 [] []).phase = .tSend ∧
    (exchanging .tSend [1] 1 [] []).edcType = .lrc ∧ ¬ (exchanging .tSend [1] 1 [] []).off < [1].length ∧
    (exchanging .tSend [1, 2] 1 [] []).off < [1, 2].length := by decide
/-- T_RECV with a response that an I-block of one byte makes too long: for IBlockInReceivePhase and
ReceivePhaseExpectsIBlock. -/
theorem witness_receivePhase (r : Bytes) (h : r = List.replicate Config.bufCap 0) :
    (exchanging .tRecv [1] 1 r []).busy = true ∧ (exchanging .tRecv [1] 1 r []).phase = .tRecv ∧
    (exchanging .tRecv [1] 1 r []).edcType = .lrc ∧
    Config.bufCap < (exchanging .tRecv [1] 1 r []).rsp.length + ([0xAA] : Bytes).length := by
  have h2 : r.length = Config.bufCap := by rw [h, List.length_replicate]
  exact ⟨rfl, rfl, rfl, by show Config.bufCap < r.length + 1; omega⟩
theorem witness_ReceivedBlockOutside :
    (waiting .cPps (.exchange Config.ppsRequest) []).phase = .cPps ∧ State.reset.phase = .idle ∧
    (waiting .cPower .powerOn []).phase = .cPower := by decide

/-- A TRANSCEIVE of 255 bytes, its first fragment acknowledged and its second answered (vector T18). -/
def wholeRun : State :=
  idleConnected 0 (.command 0x31 (.bytes (List.replicate 255 0xAA)) ::
    answersFrom 0 ([1].map ackBlock ++ [iBlock 1 0 [0x90, 0x00]]))

theorem witness_WholeTransceive : wholeRun.busy = false ∧ wholeRun.conn = true ∧ wholeRun.edcType = .lrc ∧
    List.replicate 255 (0xAA : Byte) ≠ [] ∧ (List.replicate 255 (0xAA : Byte)).length ≤ Config.bufCap ∧
    ([0x90, 0x00] : Bytes).length ≤ 254 ∧ ([1] : List Bit).length + 1 = fragmentCount (List.replicate 255 0xAA) ∧
    wholeRun.pending = .command 0x31 (.bytes (List.replicate 255 0xAA)) ::
      answersFrom wholeRun.reqCount ([1].map ackBlock ++ [iBlock 1 0 [0x90, 0x00]]) :=
  ⟨rfl, rfl, rfl, by decide +kernel, le_bufCap (by decide +kernel), by decide, by decide +kernel, rfl⟩

/-- A response of two chained I-blocks is about to come. -/
def chainedRun : State := exchanging .tSend [1] 1 [] (answersFrom 0 ([(0, [0xAA])].map
  (fun p : Bit × Bytes => iBlock p.1 1 p.2) ++ [iBlock 1 0 [0x90, 0x00]]))

theorem witness_ChainedResponse : chainedRun.busy = true ∧ chainedRun.phase = .tSend ∧ chainedRun.edcType = .lrc ∧
    chainedRun.off = chainedRun.req.length ∧ chainedRun.outstanding = some (0, .exchange (frameBytes 0 0 [])) ∧
    0 + 1 = chainedRun.reqCount ∧ (∀ p ∈ ([(0, [0xAA])] : List (Bit × Bytes)), p.2.length ≤ 254) ∧
    ([0x90, 0x00] : Bytes).length ≤ 254 ∧
    ((([(0, [0xAA])] : List (Bit × Bytes)).map Prod.snd).flatten ++ [0x90, 0x00]).length ≤ Config.bufCap ∧
    chainedRun.pending = answersFrom 0 ([(0, [0xAA])].map (fun p : Bit × Bytes => iBlock p.1 1 p.2) ++
      [iBlock 1 0 [0x90, 0x00]]) :=
  ⟨rfl, rfl, rfl, rfl, rfl, rfl, by decide, by decide, le_bufCap (by decide), rfl⟩

/-- The invariant at a state in which a TRANSCEIVE waits. -/
theorem replied_inv : Inv (replied .tSend [0x00, 0x93, 0x00, 0x93]) where
  busyIff := by decide
  request := ⟨0, _, rfl⟩
  numbered := by intro k rq h; injection h with h; injection h with h1 _; subst h1; decide
  connecting := by intro h; simp [replied, exchanging, waiting] at h
  transceiving := fun _ => ⟨rfl, rfl, le_bufCap (by decide), by decide, by decide, Nat.zero_le _⟩
  received := by intro h; simp [replied, exchanging, waiting] at h
  errListed := by decide
/-- A step from it ends the command with an error and delivers its record: the hypotheses of StepKeepsInvariant,
SeqChangesOnlyByItsTransitions and ErrorCompletionKeepsConnection. -/
theorem witness_ErrorCompletion : Inv (replied .tSend [0x00, 0x93, 0x00, 0x93]) ∧
    ∃ t, step (replied .tSend [0x00, 0x93, 0x00, 0x93]) = .next t ∧
      t.results = (replied .tSend [0x00, 0x93, 0x00, 0x93]).results ++ [⟨.error, 0x24, none, none⟩] :=
  ⟨replied_inv, _, rfl, by decide⟩
/-- The reset state meets the invariant whatever is at its ports. -/
theorem fresh_inv (inputs : List Input) : Inv (fresh inputs) where
  busyIff := by simp [fresh, State.reset]
  request := rfl
  numbered := by intro k rq h; simp [fresh, State.reset] at h
  connecting := fun _ => rfl
  transceiving := by intro h; simp [fresh, State.reset] at h
  received := by intro h; simp [fresh, State.reset] at h
  errListed := by show (0x00 : Byte) ∈ listedCodes; decide
theorem witness_step_idle : Inv (fresh [.command 0x32 .none]) ∧ ∃ t, step (fresh [.command 0x32 .none]) = .next t :=
  ⟨fresh_inv _, _, rfl⟩

/-- CONNECT waits for `PowerOn()` on a transport that negotiates by itself, and the answer is `Ok`. -/
def connecting : State := { waiting .cPower .powerOn [.answer 0 .powered] with autoNeg := true }

theorem connecting_inv : Inv connecting where
  busyIff := by decide
  request := ⟨0, rfl⟩
  numbered := by intro k rq h; injection h with h; injection h with h1 _; subst h1; decide
  connecting := fun _ => rfl
  transceiving := by intro h; simp [connecting, waiting] at h
  received := by intro h; simp [connecting, waiting] at h
  errListed := by decide
/-- A step that changes `CONN`. -/
theorem witness_ConnChanges : Inv connecting ∧ ∃ t, step connecting = .next t ∧ t.conn ≠ connecting.conn :=
  ⟨connecting_inv, _, rfl, by decide⟩
/-- A step that sets `HOSTFAULT`. -/
theorem witness_HostFault : ∃ t, step (fresh [.regPort 0x0100 0]) = .next t ∧
    (fresh [.regPort 0x0100 0]).hostFault = false ∧ t.hostFault = true := ⟨_, rfl, by decide⟩
theorem witness_NoBlockWithCrc : ∃ t, (withCrc (idleConnected 0 [])).edcType = .crc ∧
    exec (.transceive [1]) (withCrc (idleConnected 0 [])) = .next t := ⟨_, rfl, rfl⟩
theorem witness_ComputingFrame : ∃ t, computes (.frameBuildR 0) = true ∧ exec (.frameBuildR 0) (fresh []) = .next t :=
  ⟨_, rfl, rfl⟩
theorem witness_ProtocolFrame : ∃ t, computes .connect = false ∧ (∀ idx, Instr.connect ≠ .regRead idx) ∧
    (∀ idx v, Instr.connect ≠ .regWrite idx v) ∧ exec .connect (fresh []) = .next t :=
  ⟨_, rfl, (fun _ h => by cases h), (fun _ _ h => by cases h), rfl⟩

end Sys2Proof.Tests
end

section
/-! PROOFS of family 00_scope, O59: a transport error's detail is copied and nothing reads it. Replacing details
(`Spec.mapDetail f`) commutes with every operation of the machine, hence with `exec`, `fetch` and `step`. -/

namespace Sys2Proof.Proofs

open Sys2Proof.Machine Sys2Proof.Spec

/-! ### What replacing details leaves -/

@[simp] theorem mapDetail_busy (f : TransportErr → TransportErr) (s : State) : (mapDetail f s).busy = s.busy := rfl
@[simp] theorem mapDetail_conn (f : TransportErr → TransportErr) (s : State) : (mapDetail f s).conn = s.conn := rfl
@[simp] theorem mapDetail_edcType (f : TransportErr → TransportErr) (s : State) :
    (mapDetail f s).edcType = s.edcType := rfl
@[simp] theorem mapDetail_phase (f : TransportErr → TransportErr) (s : State) : (mapDetail f s).phase = s.phase := rfl
@[simp] theorem mapDetail_req (f : TransportErr → TransportErr) (s : State) : (mapDetail f s).req = s.req := rfl
@[simp] theorem mapDetail_off (f : TransportErr → TransportErr) (s : State) : (mapDetail f s).off = s.off := rfl
@[simp] theorem mapDetail_rsp (f : TransportErr → TransportErr) (s : State) : (mapDetail f s).rsp = s.rsp := rfl
@[simp] theorem mapDetail_rxseq (f : TransportErr → TransportErr) (s : State) : (mapDetail f s).rxseq = s.rxseq := rfl
@[simp] theorem mapDetail_autoNeg (f : TransportErr → TransportErr) (s : State) :
    (mapDetail f s).autoNeg = s.autoNeg := rfl
@[simp] theorem mapDetail_pending (f : TransportErr → TransportErr) (s : State) :
    (mapDetail f s).pending = s.pending.map (mapInput f) := rfl

/-- An event that is no transport error carries no detail. -/
theorem mapEvent_requestEvent (f : TransportErr → TransportErr) (rq : Request) :
    mapEvent f (requestEvent rq) = requestEvent rq := by
  cases rq <;> rfl

section Operations

variable (f : TransportErr → TransportErr)

/-! ### The shared operations -/

theorem emit_mapDetail (e : Event) (s : State) :
    emit (mapEvent f e) (mapDetail f s) = mapDetail f (emit e s) := by
  simp [emit, mapDetail]

theorem deliver_mapDetail (r : ResultRecord) (s : State) :
    deliver { r with detail := r.detail.map f } (mapDetail f s) = mapDetail f (deliver r s) := by
  simp [deliver, mapDetail, mapEvent]

theorem succeed_mapDetail (v : Option Value) (s : State) :
    succeed v (mapDetail f s) = mapDetail f (succeed v s) :=
  deliver_mapDetail f ⟨.ok, okCode, none, v⟩ s

theorem raise_mapDetail (e : ErrCode) (s : State) :
    raise e (mapDetail f s) = mapDetail f (raise e s) :=
  deliver_mapDetail f ⟨.error, errCode e, none, none⟩ s

/-- The one place a detail enters a result record (R213). -/
theorem raiseTransport_mapDetail (d : TransportErr) (s : State) :
    raiseTransport (f d) (mapDetail f s) = mapDetail f (raiseTransport d s) :=
  deliver_mapDetail f ⟨.error, errCode .transport, some d, none⟩ s

theorem finish_mapDetail (r : Except ErrCode Value) (s : State) :
    finish r (mapDetail f s) = mapDetail f (finish r s) := by
  cases r with
  | ok v => exact succeed_mapDetail f _ s
  | error e => exact raise_mapDetail f e s

theorem issue_mapDetail (p : Phase) (rq : Request) (s : State) :
    issue p rq (mapDetail f s) = mapDetail f (issue p rq s) := by
  simp [issue, mapDetail, mapEvent_requestEvent]

theorem resetBlock_mapDetail (s : State) : resetBlock (mapDetail f s) = mapDetail f (resetBlock s) := by
  simp [resetBlock, mapDetail, mapEvent]

theorem acceptCommand_mapDetail {body : State → State} (h : ∀ s, body (mapDetail f s) = mapDetail f (body s))
    (op : Byte) (operands : Operands) (s : State) :
    acceptCommand op operands body (mapDetail f s) = mapDetail f (acceptCommand op operands body s) := by
  unfold acceptCommand
  rw [mapDetail_busy]
  split
  · rfl
  · rw [← h, ← emit_mapDetail]; rfl

theorem withBuffer_mapDetail {body : State → State} (h : ∀ s, body (mapDetail f s) = mapDetail f (body s))
    (b : Bytes) (s : State) : withBuffer b body (mapDetail f s) = mapDetail f (withBuffer b body s) := by
  unfold withBuffer
  split
  · exact h s
  · exact raise_mapDetail f _ s

/-! ### CONNECT and TRANSCEIVE -/

theorem connected_mapDetail (s : State) : connected (mapDetail f s) = mapDetail f (connected s) :=
  succeed_mapDetail f none { s with conn := true, seq := 0 }

theorem powerOnDone_mapDetail (s : State) : powerOnDone (mapDetail f s) = mapDetail f (powerOnDone s) := by
  unfold powerOnDone
  rw [mapDetail_autoNeg]
  split
  · exact connected_mapDetail f s
  · exact issue_mapDetail f _ _ s

theorem ppsEcho_mapDetail (r : Bytes) (s : State) : ppsEcho r (mapDetail f s) = mapDetail f (ppsEcho r s) := by
  unfold ppsEcho
  split
  · exact connected_mapDetail f s
  · exact raise_mapDetail f _ s

theorem sendFragment_mapDetail (s : State) : sendFragment (mapDetail f s) = mapDetail f (sendFragment s) := by
  have same : nextFragment (mapDetail f s) = nextFragment s := rfl
  unfold sendFragment
  rw [same]
  cases nextFragment s with
  | error e => exact raise_mapDetail f e s
  | ok b => exact issue_mapDetail f _ _ { s with seq := s.seq + 1, off := s.off + fragmentSize s }

theorem proceed_mapDetail (s : State) : proceed (mapDetail f s) = mapDetail f (proceed s) := by
  unfold proceed
  rw [mapDetail_off, mapDetail_req]
  split
  · exact sendFragment_mapDetail f s
  · exact raise_mapDetail f _ s

theorem acknowledge_mapDetail (chaining : Bit) (s : State) :
    acknowledge chaining (mapDetail f s) = mapDetail f (acknowledge chaining s) := by
  unfold acknowledge
  rw [mapDetail_edcType, mapDetail_rxseq, mapDetail_rsp]
  split
  · cases buildR s.edcType s.rxseq with
    | error e => exact raise_mapDetail f e s
    | ok b => exact issue_mapDetail f _ _ s
  · exact succeed_mapDetail f _ s

/-! ### Received blocks -/

theorem firstIBlock_mapDetail (seq chaining : Bit) (inf : Bytes) (s : State) :
    firstIBlock seq chaining inf (mapDetail f s) = mapDetail f (firstIBlock seq chaining inf s) := by
  unfold firstIBlock
  rw [mapDetail_off, mapDetail_req]
  split
  · exact raise_mapDetail f _ s
  · exact acknowledge_mapDetail f chaining { s with rsp := inf, rxseq := seq }

theorem furtherIBlock_mapDetail (seq chaining : Bit) (inf : Bytes) (s : State) :
    furtherIBlock seq chaining inf (mapDetail f s) = mapDetail f (furtherIBlock seq chaining inf s) := by
  unfold furtherIBlock
  rw [mapDetail_rsp]
  split
  · exact acknowledge_mapDetail f chaining { s with rsp := s.rsp ++ inf, rxseq := seq }
  · exact raise_mapDetail f _ s

theorem sblockReply_mapDetail (pcb : Byte) (inf : Bytes) (s : State) :
    sblockReply pcb inf (mapDetail f s) = mapDetail f (sblockReply pcb inf s) := by
  unfold sblockReply
  rw [← proceed_mapDetail, ← emit_mapDetail]; rfl

theorem rblockReply_mapDetail (error : RError) (s : State) :
    rblockReply error (mapDetail f s) = mapDetail f (rblockReply error s) := by
  cases error with
  | noError => exact proceed_mapDetail f s
  | edcError => exact raise_mapDetail f _ s
  | otherError => exact raise_mapDetail f _ s

/-- An outcome with the details of its next state replaced. -/
def mapOutcome : Result → Result
  | .next t => .next (mapDetail f t)
  | .fault e => .fault e
  | .refused e => .refused e

theorem receive_mapDetail {inSend inRecv : State → State}
    (hSend : ∀ s, inSend (mapDetail f s) = mapDetail f (inSend s))
    (hRecv : ∀ s, inRecv (mapDetail f s) = mapDetail f (inRecv s)) (s : State) :
    receive inSend inRecv (mapDetail f s) = mapOutcome f (receive inSend inRecv s) := by
  unfold receive
  rw [mapDetail_phase]
  cases s.phase with
  | tSend => exact congrArg _ (hSend s)
  | tRecv => exact congrArg _ (hRecv s)
  | cPps => exact congrArg _ (raise_mapDetail f _ s)
  | idle => rfl
  | cPower => rfl

/-! ### The instructions -/

/-- A command, whose meaning is to be accepted and then do `body`. -/
theorem next_acceptCommand_mapDetail {body : State → State} (h : ∀ s, body (mapDetail f s) = mapDetail f (body s))
    (op : Byte) (operands : Operands) (s : State) :
    (.next (acceptCommand op operands body (mapDetail f s)) : Result) =
      mapOutcome f (.next (acceptCommand op operands body s)) :=
  congrArg _ (acceptCommand_mapDetail f h op operands s)

theorem execConnect_mapDetail (s : State) : execConnect (mapDetail f s) = mapOutcome f (execConnect s) := by
  refine next_acceptCommand_mapDetail f (fun s => ?_) _ _ s
  rw [mapDetail_conn]
  split
  · exact raise_mapDetail f _ s
  · exact issue_mapDetail f _ _ { s with busy := true }

theorem execTransceive_mapDetail (req : Bytes) (s : State) :
    execTransceive req (mapDetail f s) = mapOutcome f (execTransceive req s) := by
  refine next_acceptCommand_mapDetail f (withBuffer_mapDetail f (fun s => ?_) req) _ _ s
  rw [mapDetail_conn]
  split
  · exact raise_mapDetail f _ s
  split
  · exact raise_mapDetail f _ s
  · exact sendFragment_mapDetail f { s with busy := true, req := req, off := 0, rsp := [] }

theorem execRegWrite_mapDetail (idx value : Byte) (s : State) :
    execRegWrite idx value (mapDetail f s) = mapOutcome f (execRegWrite idx value s) := by
  unfold execRegWrite
  rw [mapDetail_busy]
  split
  · split <;> rfl
  · rfl

/-- Every instruction's meaning copies details and does nothing else with them. -/
theorem exec_mapDetail (i : Instr) (s : State) : exec i (mapDetail f s) = mapOutcome f (exec i s) := by
  cases i with
  | edcCompute bytes stop =>
    exact next_acceptCommand_mapDetail f (withBuffer_mapDetail f (fun s => finish_mapDetail f _ s) _) _ _ s
  | edcLength => exact next_acceptCommand_mapDetail f (fun s => succeed_mapDetail f _ s) _ _ s
  | apduEncode a => exact next_acceptCommand_mapDetail f (withBuffer_mapDetail f (finish_mapDetail f _) _) _ _ s
  | apduDecode bytes => exact next_acceptCommand_mapDetail f (withBuffer_mapDetail f (finish_mapDetail f _) _) _ _ s
  | rapduEncode r =>
    exact next_acceptCommand_mapDetail f
      (withBuffer_mapDetail f (withBuffer_mapDetail f (succeed_mapDetail f _) _) _) _ _ s
  | rapduDecode bytes => exact next_acceptCommand_mapDetail f (withBuffer_mapDetail f (finish_mapDetail f _) _) _ _ s
  | apduChain a seg => exact next_acceptCommand_mapDetail f (withBuffer_mapDetail f (finish_mapDetail f _) _) _ _ s
  | frameBuildI seq chaining inf =>
    exact next_acceptCommand_mapDetail f (withBuffer_mapDetail f (fun s => finish_mapDetail f _ s) _) _ _ s
  | frameBuildR n => exact next_acceptCommand_mapDetail f (fun s => finish_mapDetail f _ s) _ _ s
  | frameParse bytes =>
    exact next_acceptCommand_mapDetail f (withBuffer_mapDetail f (fun s => finish_mapDetail f _ s) _) _ _ s
  | connect => exact execConnect_mapDetail f s
  | transceive req => exact execTransceive_mapDetail f req s
  | disconnect =>
    exact next_acceptCommand_mapDetail f
      (fun s => succeed_mapDetail f none { s with conn := false, seq := 0 }) _ _ s
  | regRead idx => rfl
  | regWrite idx value => exact execRegWrite_mapDetail f idx value s
  | pcbI nad seq chaining low inf =>
    exact receive_mapDetail f (firstIBlock_mapDetail f seq chaining inf) (furtherIBlock_mapDetail f seq chaining inf) s
  | pcbS nad low inf => exact receive_mapDetail f (sblockReply_mapDetail f _ inf) (raise_mapDetail f _) s
  | pcbR nad bit5 seq mid error => exact receive_mapDetail f (rblockReply_mapDetail f error) (raise_mapDetail f _) s

/-! ### The ports -/

/-- What the next input asks for, with the details of its state replaced. -/
def mapFetched : Fetched → Fetched
  | .run i s => .run i (mapDetail f s)
  | .done s => .done (mapDetail f s)
  | .wait e => .wait e

/-- The state that a received reply leaves before its meaning is executed (R44). -/
theorem emit_rx_mapDetail (r : Bytes) (s : State) :
    emit (.rx r) (clearOutstanding (mapDetail f s)) = mapDetail f (emit (.rx r) (clearOutstanding s)) :=
  emit_mapDetail f (.rx r) (clearOutstanding s)

theorem takeBlock_mapDetail (r : Bytes) (s : State) :
    takeBlock r (mapDetail f s) = mapFetched f (takeBlock r s) := by
  simp only [takeBlock, emit_rx_mapDetail, mapDetail_edcType]
  cases parseBlock (emit (.rx r) (clearOutstanding s)).edcType r with
  | ok blk => rfl
  | error e => exact congrArg _ (raise_mapDetail f e _)

/-- A transport error's detail goes unchanged into the trace and into the result record (R213). -/
theorem takeError_mapDetail (d : TransportErr) (s : State) :
    takeError (f d) (mapDetail f s) = mapDetail f (takeError d s) := by
  unfold takeError
  rw [← raiseTransport_mapDetail, ← emit_mapDetail]; rfl

theorem takeAnswer_mapDetail (a : Answer) (s : State) :
    takeAnswer (mapAnswer f a) (mapDetail f s) = mapFetched f (takeAnswer a s) := by
  unfold takeAnswer
  rw [mapDetail_phase]
  cases a with
  | err d =>
    cases s.phase with
    | idle => rfl
    | _ => exact congrArg _ (takeError_mapDetail f d s)
  | powered =>
    cases s.phase with
    | cPower => exact congrArg _ (powerOnDone_mapDetail f (clearOutstanding s))
    | _ => rfl
  | replied r =>
    cases s.phase with
    | cPps =>
      exact congrArg _ ((congrArg _ (emit_rx_mapDetail f r s)).trans (ppsEcho_mapDetail f r _))
    | tSend => exact takeBlock_mapDetail f r s
    | tRecv => exact takeBlock_mapDetail f r s
    | idle => rfl
    | cPower => rfl

/-- Replacing details keeps which input is next. -/
theorem mapDetail_pending_cons {s : State} {x : Input} {rest : List Input} (h : s.pending = x :: rest) :
    (mapDetail f s).pending = mapInput f x :: rest.map (mapInput f) := by
  rw [mapDetail_pending, h]; rfl

/-- One step copies details and does nothing else with them, whichever input it takes. -/
theorem step_mapDetail (s : State) : step (mapDetail f s) = mapOutcome f (step s) := by
  cases hp : s.pending with
  | nil =>
    have hp' : (mapDetail f s).pending = [] := by rw [mapDetail_pending, hp]; rfl
    rw [step_empty hp, step_empty hp']; rfl
  | cons x rest =>
    have hp' := mapDetail_pending_cons f hp
    cases x with
    | command op operands =>
      rw [step_command hp, step_command hp']
      cases decodeCommand op operands with
      | ok i => exact exec_mapDetail f i { s with pending := rest }
      | error e =>
        exact next_acceptCommand_mapDetail f (raise_mapDetail f _) op operands { s with pending := rest }
    | regPort w data =>
      rw [step_regPort hp, step_regPort hp']
      cases decodeRegPort w data with
      | ok i => exact exec_mapDetail f i { s with pending := rest }
      | error e => rfl
    | reset =>
      rw [step_reset hp, step_reset hp']
      exact congrArg _ (resetBlock_mapDetail f { s with pending := rest })
    | answer k a =>
      by_cases ho : ∃ rq, s.outstanding = some (k, rq)
      · obtain ⟨rq, ho⟩ := ho
        have hTake : takeAnswer (mapAnswer f a) { mapDetail f s with pending := rest.map (mapInput f) } =
            mapFetched f (takeAnswer a { s with pending := rest }) :=
          takeAnswer_mapDetail f a { s with pending := rest }
        rw [step_answer hp ho, step_answer hp' ho, hTake]
        cases takeAnswer a { s with pending := rest } with
        | run i t => exact exec_mapDetail f i t
        | done t => rfl
        | wait e => rfl
      · rw [not_exists] at ho
        rw [step_answer_other hp ho, step_answer_other hp' ho]; rfl

end Operations

/-- Settles O59: every operation of the machine commutes with replacing details. -/
theorem transportDetailIsOnlyCopied : Obligations.TransportDetailIsOnlyCopied := by
  intro f s
  rw [step_mapDetail]
  cases step s <;> rfl

end Sys2Proof.Proofs
end

section
/-! PROOFS of family 00_scope, O56: `CFG.EDC_TYPE` and `AUTO_NEG` as one value, which every operation of the machine but
REG_WRITE and reset leaves. -/

namespace Sys2Proof.Proofs

open Sys2Proof.Machine

/-- The selected checksum and the transport's capability flag (R8, R28). -/
def config (s : State) : EdcType × Bool := (s.edcType, s.autoNeg)

/-! ### The operations -/

theorem succeed_config (v : Option Value) (s : State) : config (succeed v s) = config s := rfl

theorem raise_config (e : ErrCode) (s : State) : config (raise e s) = config s := rfl

theorem finish_config (r : Except ErrCode Value) (s : State) : config (finish r s) = config s := by
  obtain ⟨rec, h⟩ := finish_eq_deliver r s
  rw [h]; rfl

theorem acceptCommand_config {body : State → State} (h : ∀ s, config (body s) = config s) (op : Byte)
    (operands : Operands) (s : State) : config (acceptCommand op operands body s) = config s := by
  obtain ⟨-, e⟩ | ⟨-, e⟩ := acceptCommand_cases op operands body s
  · rw [e]; rfl
  · rw [e, h]; rfl

theorem withBuffer_config {body : State → State} (h : ∀ s, config (body s) = config s) (b : Bytes) (s : State) :
    config (withBuffer b body s) = config s := by
  obtain ⟨-, e⟩ | ⟨-, e⟩ := withBuffer_cases b body s
  · rw [e, h]
  · rw [e]; rfl

theorem powerOnDone_config (s : State) : config (powerOnDone s) = config s := by
  unfold powerOnDone; split <;> rfl

theorem ppsEcho_config (r : Bytes) (s : State) : config (ppsEcho r s) = config s := by
  unfold ppsEcho; split <;> rfl

theorem sendFragment_config (s : State) : config (sendFragment s) = config s := by
  obtain ⟨f, -, -, e⟩ | ⟨-, e⟩ := sendFragment_cases s <;> rw [e] <;> rfl

theorem proceed_config (s : State) : config (proceed s) = config s := by
  obtain ⟨-, e⟩ | ⟨-, e⟩ := proceed_cases s
  · rw [e, sendFragment_config]
  · rw [e]; rfl

theorem acknowledge_config (chaining : Bit) (s : State) : config (acknowledge chaining s) = config s := by
  obtain ⟨-, -, e⟩ | ⟨-, -, e⟩ | ⟨-, e⟩ := acknowledge_cases chaining s <;> rw [e] <;> rfl

theorem firstIBlock_config (seq chaining : Bit) (inf : Bytes) (s : State) :
    config (firstIBlock seq chaining inf s) = config s := by
  unfold firstIBlock
  split
  · rfl
  · exact acknowledge_config chaining { s with rsp := inf, rxseq := seq }

theorem furtherIBlock_config (seq chaining : Bit) (inf : Bytes) (s : State) :
    config (furtherIBlock seq chaining inf s) = config s := by
  unfold furtherIBlock
  split
  · exact acknowledge_config chaining { s with rsp := s.rsp ++ inf, rxseq := seq }
  · rfl

theorem sblockReply_config (pcb : Byte) (inf : Bytes) (s : State) : config (sblockReply pcb inf s) = config s :=
  proceed_config (emit (.sblock pcb inf) s)

theorem rblockReply_config (error : RError) (s : State) : config (rblockReply error s) = config s := by
  cases error with
  | noError => exact proceed_config s
  | edcError => rfl
  | otherError => rfl

/-! ### The instructions -/

/-- The step answers a next state that has the configuration of `s`. -/
def KeepsConfig (r : Result) (s : State) : Prop := ∃ t, r = .next t ∧ config t = config s

theorem keepsConfig_acceptCommand {body : State → State} (h : ∀ s, config (body s) = config s) (op : Byte)
    (operands : Operands) (s : State) : KeepsConfig (.next (acceptCommand op operands body s)) s :=
  ⟨_, rfl, acceptCommand_config h op operands s⟩

theorem keepsConfig_receive {inSend inRecv : State → State} (hSend : ∀ s, config (inSend s) = config s)
    (hRecv : ∀ s, config (inRecv s) = config s) (s : State) : KeepsConfig (receive inSend inRecv s) s := by
  obtain ⟨-, e⟩ | ⟨-, e⟩ | ⟨-, e⟩ | ⟨-, e⟩ := receive_cases inSend inRecv s
  · exact ⟨_, e, hSend s⟩
  · exact ⟨_, e, hRecv s⟩
  · exact ⟨_, e, rfl⟩
  · exact ⟨_, e, rfl⟩

theorem keepsConfig_execConnect (s : State) : KeepsConfig (execConnect s) s :=
  keepsConfig_acceptCommand (fun s => by split <;> rfl) _ _ s

theorem keepsConfig_execTransceive (req : Bytes) (s : State) : KeepsConfig (execTransceive req s) s := by
  refine keepsConfig_acceptCommand (withBuffer_config (fun s => ?_) req) _ _ s
  split
  · rfl
  split
  · rfl
  · exact sendFragment_config { s with busy := true, req := req, off := 0, rsp := [] }

/-- The one instruction that can write a register (R231). -/
def isRegWrite : Instr → Bool
  | .regWrite _ _ => true
  | _ => false

/-- Every instruction but REG_WRITE leaves the configuration (R8, R28). -/
theorem keepsConfig_exec {i : Instr} (h : isRegWrite i = false) (s : State) : KeepsConfig (exec i s) s := by
  cases i with
  | edcCompute bytes stop =>
    exact keepsConfig_acceptCommand (withBuffer_config (fun s => finish_config _ s) _) _ _ s
  | edcLength => exact keepsConfig_acceptCommand (fun s => succeed_config _ s) _ _ s
  | apduEncode a => exact keepsConfig_acceptCommand (withBuffer_config (finish_config _) _) _ _ s
  | apduDecode bytes => exact keepsConfig_acceptCommand (withBuffer_config (finish_config _) _) _ _ s
  | rapduEncode r =>
    exact keepsConfig_acceptCommand (withBuffer_config (withBuffer_config (succeed_config _) _) _) _ _ s
  | rapduDecode bytes => exact keepsConfig_acceptCommand (withBuffer_config (finish_config _) _) _ _ s
  | apduChain a seg => exact keepsConfig_acceptCommand (withBuffer_config (finish_config _) _) _ _ s
  | frameBuildI seq chaining inf =>
    exact keepsConfig_acceptCommand (withBuffer_config (fun s => finish_config _ s) _) _ _ s
  | frameBuildR n => exact keepsConfig_acceptCommand (fun s => finish_config _ s) _ _ s
  | frameParse bytes =>
    exact keepsConfig_acceptCommand (withBuffer_config (fun s => finish_config _ s) _) _ _ s
  | connect => exact keepsConfig_execConnect s
  | transceive req => exact keepsConfig_execTransceive req s
  | disconnect =>
    exact keepsConfig_acceptCommand (fun s => succeed_config none { s with conn := false, seq := 0 }) _ _ s
  | regRead idx => exact ⟨_, rfl, rfl⟩
  | regWrite idx value => cases h
  | pcbI nad seq chaining low inf =>
    exact keepsConfig_receive (firstIBlock_config seq chaining inf) (furtherIBlock_config seq chaining inf) s
  | pcbS nad low inf => exact keepsConfig_receive (sblockReply_config _ inf) (raise_config _) s
  | pcbR nad bit5 seq mid error => exact keepsConfig_receive (rblockReply_config error) (raise_config _) s

/-- REG_WRITE writes `CFG` alone, and only while `BUSY = 0` (R231). -/
theorem execRegWrite_cases (idx value : Byte) (s : State) :
    (idx = 0x02 ∧ s.busy = false ∧ execRegWrite idx value s = .next { s with edcType := edcTypeOfCfg value }) ∨
    KeepsConfig (execRegWrite idx value s) s := by
  unfold execRegWrite
  split
  · cases hb : s.busy with
    | false => exact .inl ⟨‹_›, rfl, rfl⟩
    | true => exact .inr ⟨_, rfl, rfl⟩
  · exact .inr ⟨_, rfl, rfl⟩

/-! ### What the ports decode to -/

/-- No operand record makes a command a REG_WRITE (R70). -/
theorem decodeOperands_not_regWrite {c : Opcode} {operands : Operands} {i : Instr}
    (h : decodeOperands c operands = .ok i) : isRegWrite i = false := by
  cases i with
  | regWrite idx value =>
    unfold decodeOperands narrowApdu at h
    repeat' split at h
    all_goals cases h
  | _ => rfl

/-- No command is a REG_WRITE (R70). -/
theorem decodeCommand_not_regWrite {op : Byte} {operands : Operands} {i : Instr}
    (h : decodeCommand op operands = .ok i) : isRegWrite i = false := by
  unfold decodeCommand at h
  split at h
  · cases h
  · exact decodeOperands_not_regWrite h

/-- No received block is a REG_WRITE (R72). -/
theorem instrOfBlock_not_regWrite (b : Block) : isRegWrite (instrOfBlock b) = false := by cases b <;> rfl

/-- A register port word is its `W` bit, its reserved bits and its index (R88). -/
theorem regPort_word_fields (w : BitVec 16) :
    w.extractLsb' 15 1 ++ w.extractLsb' 8 7 ++ w.extractLsb' 0 8 = w := by
  rw [BitVec.extractLsb'_append_extractLsb'_eq_extractLsb' (by rfl),
    BitVec.extractLsb'_append_extractLsb'_eq_extractLsb' (by rfl)]
  exact BitVec.extractLsb'_eq_self

/-- The two operations of the register port, by the word's bits (R88). -/
theorem decodeRegPort_ok {w : BitVec 16} {data : Byte} {i : Instr} (h : decodeRegPort w data = .ok i) :
    (∃ idx, w = 0x00#8 ++ idx ∧ i = .regRead idx) ∨ (∃ idx, w = 0x80#8 ++ idx ∧ i = .regWrite idx data) := by
  have hw := regPort_word_fields w
  unfold decodeRegPort at h
  split at h
  · cases h
  rename_i hReserved
  rw [not_not.1 hReserved] at hw
  split at h
  next hRead =>
    rw [hRead] at hw
    cases h
    exact .inl ⟨_, hw.symm, rfl⟩
  next hWrite =>
    rw [(BitVec.eq_zero_or_eq_one _).resolve_left hWrite] at hw
    cases h
    exact .inr ⟨_, hw.symm, rfl⟩

/-! ### The step -/

/-- What a step does with what its ports gave. -/
def runFetched : Fetched → Result
  | .run i s => exec i s
  | .done s => .next s
  | .wait e => .fault e

theorem keepsConfig_takeBlock (r : Bytes) (s : State) : KeepsConfig (runFetched (takeBlock r s)) s := by
  obtain ⟨blk, -, e⟩ | ⟨c, -, e⟩ := takeBlock_cases r s
  · rw [e]; exact keepsConfig_exec (instrOfBlock_not_regWrite blk) (emit (.rx r) (clearOutstanding s))
  · rw [e]; exact ⟨_, rfl, rfl⟩

theorem keepsConfig_takeAnswer (a : Answer) (s : State) : KeepsConfig (runFetched (takeAnswer a s)) s := by
  unfold takeAnswer
  cases a with
  | err d => cases s.phase <;> exact ⟨_, rfl, rfl⟩
  | powered =>
    cases s.phase with
    | cPower => exact ⟨_, rfl, powerOnDone_config (clearOutstanding s)⟩
    | _ => exact ⟨_, rfl, rfl⟩
  | replied r =>
    cases s.phase with
    | cPps => exact ⟨_, rfl, ppsEcho_config r (emit (.rx r) (clearOutstanding s))⟩
    | tSend => exact keepsConfig_takeBlock r s
    | tRecv => exact keepsConfig_takeBlock r s
    | _ => exact ⟨_, rfl, rfl⟩

/-- No answer of the transport changes the configuration. -/
theorem keepsConfig_step_answer {s : State} {k : Nat} {a : Answer} {rest : List Input}
    (h : s.pending = .answer k a :: rest) : KeepsConfig (step s) s := by
  by_cases ho : ∃ rq, s.outstanding = some (k, rq)
  · obtain ⟨rq, ho⟩ := ho
    rw [step_answer h ho]
    exact keepsConfig_takeAnswer a { s with pending := rest }
  · rw [not_exists] at ho
    exact ⟨_, step_answer_other h ho, rfl⟩

/-- No command changes the configuration. -/
theorem keepsConfig_step_command {s : State} {op : Byte} {operands : Operands} {rest : List Input}
    (h : s.pending = .command op operands :: rest) : KeepsConfig (step s) s := by
  rw [step_command h]
  cases hd : decodeCommand op operands with
  | ok i => exact keepsConfig_exec (decodeCommand_not_regWrite hd) { s with pending := rest }
  | error e => exact keepsConfig_acceptCommand (raise_config _) op operands { s with pending := rest }

/-- A register port word changes the configuration only as a write to `CFG` while `BUSY = 0` (R88, R231). -/
theorem step_regPort_config {s : State} {w : BitVec 16} {data : Byte} {rest : List Input}
    (h : s.pending = .regPort w data :: rest) :
    (w = 0x8002 ∧ s.busy = false ∧ step s = .next { s with edcType := edcTypeOfCfg data, pending := rest }) ∨
    KeepsConfig (step s) s := by
  rw [step_regPort h]
  cases hd : decodeRegPort w data with
  | error e => exact .inr ⟨_, rfl, rfl⟩
  | ok i =>
    obtain ⟨idx, rfl, rfl⟩ | ⟨idx, rfl, rfl⟩ := decodeRegPort_ok hd
    · exact .inr ⟨_, rfl, rfl⟩
    · obtain ⟨rfl, hb, e⟩ | hKeeps := execRegWrite_cases idx data { s with pending := rest }
      · exact .inl ⟨rfl, hb, e⟩
      · exact .inr hKeeps

theorem KeepsConfig.fields {r : Result} {s t : State} (h : KeepsConfig r s) (ht : r = .next t) :
    t.edcType = s.edcType ∧ t.autoNeg = s.autoNeg := by
  obtain ⟨t', rfl, hc⟩ := h
  cases ht
  exact Prod.mk.inj hc

/-- Settles O56, by the input the step takes. -/
theorem cfgChangesOnlyByWriteOrReset : Obligations.CfgChangesOnlyByWriteOrReset := by
  intro s t ht
  cases hp : s.pending with
  | nil => rw [step_empty hp] at ht; cases ht
  | cons x rest =>
    cases x with
    | command op operands =>
      obtain ⟨hEdc, hNeg⟩ := (keepsConfig_step_command hp).fields ht
      exact ⟨hNeg, .inl hEdc⟩
    | regPort w data =>
      obtain ⟨rfl, hb, e⟩ | hKeeps := step_regPort_config hp
      · rw [e] at ht; cases ht
        exact ⟨rfl, .inr (.inr ⟨data, rest, rfl, hb⟩)⟩
      · obtain ⟨hEdc, hNeg⟩ := hKeeps.fields ht
        exact ⟨hNeg, .inl hEdc⟩
    | reset =>
      rw [step_reset hp] at ht; cases ht
      exact ⟨rfl, .inr (.inl ⟨rest, rfl⟩)⟩
    | answer k a =>
      obtain ⟨hEdc, hNeg⟩ := (keepsConfig_step_answer hp).fields ht
      exact ⟨hNeg, .inl hEdc⟩

end Sys2Proof.Proofs
end

section
/-! PROOFS of family 10_state, the layer the others share: the blocks the engine builds in the spec's own arithmetic, and
the result records its computations can end with. -/

namespace Sys2Proof.Proofs

open Sys2Proof.Machine Sys2Proof.Spec

/-! ### The blocks the engine builds -/

/-- The running exclusive OR of R140 is the model's LRC. -/
theorem lrc_eq_xorUpTo (b : Bytes) (e : Nat) : lrc b e = xorUpTo b e := by
  induction e with
  | zero => rfl
  | succ e ih =>
    rw [xorUpTo, ← ih, lrc, lrc, List.take_add_one, List.foldl_append, List.getD_eq_getElem?_getD]
    cases b[e]? <;> simp

/-- A block laid out with NAD 0 and its LRC is the one of R72 and R79. -/
theorem frameBytes_eq_lrcBlock {pcb : Byte} {n : Nat} (h : pcb = BitVec.ofNat 8 n) (inf : Bytes) :
    frameBytes 0x00 pcb inf = lrcBlock n inf := by
  subst h
  exact congrArg (fun c => frameBody 0x00 (BitVec.ofNat 8 n) inf ++ [c]) (lrc_eq_xorUpTo _ _)

/-- The PCB of an I-block by its number (R73). -/
theorem pcbOfI_eq_ofNat (seq chaining : Bit) :
    pcbOfI seq chaining 0 = BitVec.ofNat 8 (seq.toNat * 64 + chaining.toNat * 32) := by
  revert seq chaining; decide

/-- With the LRC selected `BuildI` answers the I-block of R73 (R150). -/
theorem buildI_lrc {inf : Bytes} (h : inf.length ≤ 254) (seq chaining : Bit) :
    buildI .lrc seq chaining inf = .ok (iBlock seq chaining inf) := by
  rw [buildI_cases, if_neg (Nat.not_lt.2 h), iBlock, ← frameBytes_eq_lrcBlock (pcbOfI_eq_ofNat seq chaining)]

/-- The request bytes a fragment carries (R191). -/
theorem slice_fragment (s : State) : slice s.req s.off (s.off + fragmentSize s) = fragmentBytes s := by
  simp [slice, fragmentBytes, fragmentSize, unsent, Config.fragmentLen, List.take_eq_take_iff]

theorem fragmentBytes_length (s : State) : (fragmentBytes s).length = fragmentSize s := by
  simp [fragmentBytes, fragmentSize, unsent, Config.fragmentLen]

theorem fragmentBytes_length_le (s : State) : (fragmentBytes s).length ≤ 254 := List.length_take_le _ _

/-- Bytes remain after the fragment exactly when more than 254 are unsent (R191). -/
theorem more_iff (s : State) : s.off + fragmentSize s < s.req.length ↔ s.off + 254 < s.req.length := by
  simp only [fragmentSize, unsent, Config.fragmentLen]; omega

/-- With the LRC selected the next fragment is the I-block of R191. -/
theorem nextFragment_eq_fragmentBlock {s : State} (h : s.edcType = .lrc) : nextFragment s = .ok (fragmentBlock s) := by
  simp only [nextFragment, h, slice_fragment, more_iff, fragmentBlock]
  exact buildI_lrc (fragmentBytes_length_le s) _ _

/-- The state after a fragment is sent: `SEQ` toggled, `OFF` advanced, the request issued (R190, R192). -/
def fragmentSent (s : State) : State :=
  issue .tSend (.exchange (fragmentBlock s)) { s with seq := s.seq + 1, off := s.off + (fragmentBytes s).length }

/-- With the LRC selected one turn of the send loop sends the next fragment (R190, R192). -/
theorem sendFragment_eq_fragmentSent {s : State} (h : s.edcType = .lrc) : sendFragment s = fragmentSent s := by
  simp [sendFragment, nextFragment_eq_fragmentBlock h, fragmentSent, fragmentBytes_length]

/-! ### The errors a computation can raise -/

/-- A computation does not answer the error that R76 reserves. -/
def Raisable {α : Type} (r : Except ErrCode α) : Prop := r ≠ .error .frmUnknownKind

theorem raisable_ok {α : Type} (a : α) : Raisable (.ok a) := by simp [Raisable]

theorem raisable_error {α : Type} {e : ErrCode} (h : e ≠ .frmUnknownKind) : Raisable (.error e : Except ErrCode α) := by
  simpa [Raisable] using h

theorem Raisable.map {α β : Type} {r : Except ErrCode α} (h : Raisable r) (f : α → β) : Raisable (r.map f) := by
  cases r with
  | ok a => exact raisable_ok _
  | error e => exact raisable_error fun he => h (he ▸ rfl)

theorem raisable_encodeApdu (a : CommandApdu) : Raisable (encodeApdu a) := by
  unfold encodeApdu; split <;> simp [Raisable]

theorem raisable_decodeApdu (b : Bytes) : Raisable (decodeApdu b) := by
  unfold decodeApdu decodeShort decodeExtended
  dsimp only
  split_ifs <;> simp [Raisable]

theorem raisable_decodeRapdu (b : Bytes) : Raisable (decodeRapdu b) := by
  unfold decodeRapdu; dsimp only; split <;> simp [Raisable]

theorem raisable_chainApdu (a : CommandApdu) (seg : Nat) : Raisable (chainApdu a seg) := by
  unfold chainApdu; split_ifs <;> simp [Raisable]

theorem raisable_edcValue (t : EdcType) (b : Bytes) (stop : Nat) : Raisable (edcValue t b stop) := by
  unfold edcValue
  split
  · simp [Raisable]
  · cases t <;> simp [Raisable, checksum]

theorem raisable_buildI (t : EdcType) (seq chaining : Bit) (inf : Bytes) : Raisable (buildI t seq chaining inf) := by
  rw [buildI_cases]
  split
  · simp [Raisable]
  · cases t <;> simp [Raisable]

theorem raisable_buildR (t : EdcType) (n : Bit) : Raisable (buildR t n) := by
  cases t <;> simp [Raisable, buildR_lrc]

/-- Kind dispatch never fails for want of a kind (R76). -/
theorem raisable_classify (b : Bytes) (l : Nat) : Raisable (classify b l) := by
  unfold classify
  dsimp only
  cases kindOf (byteAt b 1) with
  | i => exact raisable_ok _
  | s => exact raisable_ok _
  | r =>
    dsimp only
    split
    · simp [Raisable]
    · split <;> simp [Raisable]

theorem raisable_parseBlock (t : EdcType) (b : Bytes) : Raisable (parseBlock t b) := by
  unfold parseBlock
  dsimp only
  split_ifs
  case neg => exact raisable_classify _ _
  all_goals simp [Raisable]

/-- An I-block that parses carries at most 254 INF bytes (R78, R160). -/
theorem parsed_inf_length_le {t : EdcType} {b inf edc : Bytes} {nad pcb : Byte} {seq chaining : Bit}
    (h : parseBlock t b = .ok (.i nad pcb inf edc seq chaining)) : inf.length ≤ 254 := by
  obtain ⟨-, -, hl, -, hc⟩ := parseBlock_ok h
  have hInf : inf = slice b 3 (3 + natAt b 2) := by
    unfold classify at hc
    dsimp only at hc
    split at hc
    · cases hc; rfl
    · cases hc
    · repeat' split at hc
      all_goals cases hc
  rw [hInf, slice, List.length_take]
  omega

/-! ### The records a command can end with -/

/-- What R36 and R250 say of every result record: its code is a listed one, `0x00` exactly with status OK, and an error
carries no value. -/
structure ProperRecord (r : ResultRecord) : Prop where
  listed : r.code ∈ listedCodes
  okIff : r.status = .ok ↔ r.code = 0x00
  errorValue : r.status = .error → r.value = none

theorem properRecord_ok (v : Option Value) : ProperRecord ⟨.ok, okCode, none, v⟩ :=
  ⟨.head _, iff_of_true rfl rfl, nofun⟩

/-- Every error but the reserved one has a listed code (R250). -/
theorem errCode_listed {e : ErrCode} (h : e ≠ .frmUnknownKind) : errCode e ∈ listedCodes := by
  revert h; cases e <;> decide

theorem errCode_ne_zero (e : ErrCode) : errCode e ≠ 0x00 := by cases e <;> decide

theorem properRecord_error {e : ErrCode} (h : e ≠ .frmUnknownKind) (d : Option TransportErr) :
    ProperRecord ⟨.error, errCode e, d, none⟩ where
  listed := errCode_listed h
  okIff := iff_of_false nofun (errCode_ne_zero e)
  errorValue _ := rfl

/-- A command's body completes it at once, with a record R36 allows. -/
def Delivers (body : State → State) : Prop := ∀ s, ∃ r, ProperRecord r ∧ body s = deliver r s

theorem delivers_succeed (v : State → Option Value) : Delivers (fun s => succeed (v s) s) :=
  fun s => ⟨_, properRecord_ok (v s), rfl⟩

theorem delivers_raise {e : ErrCode} (h : e ≠ .frmUnknownKind) : Delivers (raise e) :=
  fun _ => ⟨_, properRecord_error h none, rfl⟩

theorem delivers_finish {r : State → Except ErrCode Value} (h : ∀ s, Raisable (r s)) :
    Delivers (fun s => finish (r s) s) := by
  intro s
  cases hr : r s with
  | ok v => simpa only [hr, finish_ok] using delivers_succeed (fun _ => some v) s
  | error e => simpa only [hr, finish_error] using delivers_raise (fun he => h s (he ▸ hr)) s

theorem delivers_withBuffer {body : State → State} (h : Delivers body) (b : Bytes) : Delivers (withBuffer b body) := by
  intro s
  obtain ⟨-, e⟩ | ⟨-, e⟩ := withBuffer_cases b body s
  · rw [e]; exact h s
  · rw [e]; exact delivers_raise (by decide) s

/-- A computing command, once accepted, completes at once (R26). -/
theorem exec_computes {i : Instr} (h : computes i = true) (s : State) :
    ∃ op operands body, Delivers body ∧ exec i s = .next (acceptCommand op operands body s) := by
  cases i with
  | edcCompute b stop =>
    exact ⟨_, _, _, delivers_withBuffer (delivers_finish fun s => raisable_edcValue _ b stop) b, rfl⟩
  | edcLength => exact ⟨_, _, _, delivers_succeed _, rfl⟩
  | apduEncode a =>
    exact ⟨_, _, _, delivers_withBuffer (delivers_finish fun _ => (raisable_encodeApdu a).map _) _, rfl⟩
  | apduDecode b =>
    exact ⟨_, _, _, delivers_withBuffer (delivers_finish fun _ => (raisable_decodeApdu b).map _) _, rfl⟩
  | rapduEncode r =>
    exact ⟨_, _, _, delivers_withBuffer (delivers_withBuffer (delivers_succeed fun _ => _) _) _, rfl⟩
  | rapduDecode b =>
    exact ⟨_, _, _, delivers_withBuffer (delivers_finish fun _ => (raisable_decodeRapdu b).map _) _, rfl⟩
  | apduChain a seg =>
    exact ⟨_, _, _, delivers_withBuffer (delivers_finish fun _ => (raisable_chainApdu a seg).map _) _, rfl⟩
  | frameBuildI seq chaining inf =>
    exact ⟨_, _, _, delivers_withBuffer (delivers_finish fun s => (raisable_buildI _ seq chaining inf).map _) _, rfl⟩
  | frameBuildR n => exact ⟨_, _, _, delivers_finish fun s => (raisable_buildR _ n).map _, rfl⟩
  | frameParse b =>
    exact ⟨_, _, _, delivers_withBuffer (delivers_finish fun s => (raisable_parseBlock _ b).map _) _, rfl⟩
  | _ => cases h

/-- Settles O57: a computing command delivers one record, or only sets the mark while `BUSY = 1`. -/
theorem computingCommandsFrame : Obligations.ComputingCommandsFrame := by
  intro s t i hi ht
  obtain ⟨op, operands, body, hBody, e⟩ := exec_computes hi s
  cases e.symm.trans ht
  obtain ⟨hb, e⟩ | ⟨hb, e⟩ := acceptCommand_cases op operands body s
  · rw [e]; simp [hb, markHostFault]
  · obtain ⟨r, -, hr⟩ := hBody (emit (.cmd op operands) s)
    rw [e, hr]; simp [hb]

end Sys2Proof.Proofs
end

section
/-! PROOFS of family 10_state, what one step can do: `Effect s x t` says that taking the input `x` leads from `s` to `t`, one
constructor per kind of outcome. Every step is one (`step_reacts`), and the statements about every step read it off. -/

namespace Sys2Proof.Proofs

open Sys2Proof.Machine Sys2Proof.Spec

/-! ### The way to a step's outcome -/

theorem sentBlocks_append (a b : List Event) : sentBlocks (a ++ b) = sentBlocks a ++ sentBlocks b := by
  induction a with
  | nil => rfl
  | cons e es ih => cases e <;> simp [sentBlocks, ih]

/-- `u` is `s` on the way to a step's outcome: events have happened of which none sends a block, and `BUSY`, `PHASE`, the
operation context and the outstanding request may have been written. -/
structure Prepared (s u : State) : Prop where
  conn : u.conn = s.conn
  seq : u.seq = s.seq
  err : u.err = s.err
  edcType : u.edcType = s.edcType
  reqCount : u.reqCount = s.reqCount
  autoNeg : u.autoNeg = s.autoNeg
  hostFault : u.hostFault = s.hostFault
  results : u.results = s.results
  regReads : u.regReads = s.regReads
  pending : u.pending = s.pending
  events : ∃ evs, u.trace = s.trace ++ evs ∧ sentBlocks evs = []

theorem prepared_emit {e : Event} (he : sentBlocks [e] = []) (s : State) : Prepared s (emit e s) :=
  ⟨rfl, rfl, rfl, rfl, rfl, rfl, rfl, rfl, rfl, rfl, [e], rfl, he⟩

theorem Prepared.emit {s u : State} (h : Prepared s u) {e : Event} (he : sentBlocks [e] = []) :
    Prepared s (emit e u) := by
  obtain ⟨evs, hTrace, hQuiet⟩ := h.events
  exact { h with events := ⟨evs ++ [e], by simp [hTrace], by rw [sentBlocks_append, hQuiet, he]; rfl⟩ }

/-- `u` is `s` after the answer its command waits for has been taken: no request is outstanding, and the command and its
context are as they were (R205). -/
structure Taken (s u : State) : Prop extends Prepared s u where
  outstanding : u.outstanding = none
  busy : u.busy = s.busy
  phase : u.phase = s.phase
  req : u.req = s.req
  off : u.off = s.off
  rsp : u.rsp = s.rsp

theorem taken_clearOutstanding (s : State) : Taken s (clearOutstanding s) :=
  { toPrepared := ⟨rfl, rfl, rfl, rfl, rfl, rfl, rfl, rfl, rfl, rfl, [], (List.append_nil _).symm, rfl⟩
    outstanding := rfl, busy := rfl, phase := rfl, req := rfl, off := rfl, rsp := rfl }

theorem Taken.emit {s u : State} (h : Taken s u) {e : Event} (he : sentBlocks [e] = []) : Taken s (emit e u) :=
  { h with toPrepared := h.toPrepared.emit he }

/-! ### The outcomes -/

/-- The host breaks R286 with a register port word: reserved bits set, or a write to `CFG` while `BUSY = 1`. -/
def PortViolation (w : BitVec 16) (s : State) : Prop :=
  w.toNat / 256 % 128 ≠ 0 ∨ (w = 0x8002 ∧ s.busy = true)

/-- What taking one input can do, `s` being the state with the input taken from the ports. -/
inductive Effect (s : State) : Input → State → Prop where
  /-- A command while `BUSY = 1` (R285). -/
  | commandIgnored {op operands} (busy : s.busy = true) : Effect s (.command op operands) (markHostFault s)
  /-- A command that completes in the step that accepts it (R26, R36). -/
  | commandCompletes {op operands u r} (idle : s.busy = false) (prep : Prepared s u)
      (outstanding : u.outstanding = s.outstanding) (proper : ProperRecord r) :
      Effect s (.command op operands) (deliver r u)
  /-- DISCONNECT (R200). -/
  | disconnects {u} (idle : s.busy = false) (prep : Prepared s u) (outstanding : u.outstanding = s.outstanding) :
      Effect s (.command 0x32 .none) (succeed none { u with conn := false, seq := 0 })
  /-- CONNECT begins (R184). -/
  | powersOn {op operands u} (idle : s.busy = false) (free : s.conn = false) (prep : Prepared s u)
      (busy : u.busy = true) : Effect s (.command op operands) (issue .cPower .powerOn u)
  /-- TRANSCEIVE begins (R190). -/
  | firstFragment {op operands u} (idle : s.busy = false) (conn : s.conn = true) (prep : Prepared s u)
      (busy : u.busy = true) (edc : s.edcType = .lrc) (more : u.off < u.req.length)
      (reqFits : u.req.length ≤ Config.bufCap) (rsp : u.rsp = []) :
      Effect s (.command op operands) (fragmentSent u)
  /-- REG_READ (R230). -/
  | regRead {w data v} (legal : ¬ PortViolation w s) :
      Effect s (.regPort w data) { s with regReads := s.regReads ++ [v] }
  /-- A write to `CFG` while `BUSY = 0` (R231). -/
  | cfgWrite {w data edc} (legal : ¬ PortViolation w s) (idle : s.busy = false) :
      Effect s (.regPort w data) { s with edcType := edc }
  /-- A write to a register that is not writable (R231). -/
  | writeIgnored {w data} (legal : ¬ PortViolation w s) : Effect s (.regPort w data) s
  /-- A register port word that breaks R286. -/
  | portViolation {w data} (violation : PortViolation w s) : Effect s (.regPort w data) (markHostFault s)
  /-- The reset input (R280). -/
  | reset : Effect s .reset (resetBlock s)
  /-- An answer that no command waits for (R280; log entry 10). -/
  | answerDiscarded {k a} : Effect s (.answer k a) s
  /-- An answer that completes the command and leaves the connection (R205). -/
  | answerCompletes {k a u r} (waits : s.phase ≠ .idle) (prep : Prepared s u) (outstanding : u.outstanding = none)
      (proper : ProperRecord r) : Effect s (.answer k a) (deliver r u)
  /-- An answer that completes a CONNECT with success (R184). -/
  | connects {k a u} (waits : s.phase = .cPower ∨ s.phase = .cPps) (taken : Taken s u) :
      Effect s (.answer k a) (connected u)
  /-- CONNECT goes on with the PPS request (R184). -/
  | requestsPps {k a u} (waits : s.phase = .cPower) (taken : Taken s u) :
      Effect s (.answer k a) (issue .cPps (.exchange Config.ppsRequest) u)
  /-- TRANSCEIVE goes on with the next fragment (R193, R194). -/
  | nextFragment {k a u} (waits : s.phase = .tSend) (taken : Taken s u) (edc : s.edcType = .lrc)
      (more : s.off < s.req.length) : Effect s (.answer k a) (fragmentSent u)
  /-- TRANSCEIVE acknowledges an I-block of the response (R195, R196, R198). -/
  | acknowledges {k a u n rsp rxseq} (waits : s.phase = .tSend ∨ s.phase = .tRecv) (taken : Taken s u)
      (edc : s.edcType = .lrc) (sent : s.phase = .tSend → s.req.length ≤ s.off)
      (rspFits : rsp.length ≤ Config.bufCap) :
      Effect s (.answer k a) (issue .tRecv (.exchange (ackBlock n)) { u with rsp := rsp, rxseq := rxseq })

/-- The outcome is a next state that taking `x` can lead to. -/
def Reacts (r : Result) (s : State) (x : Input) : Prop := ∃ t, r = .next t ∧ Effect s x t

/-! ### Commands -/

/-- A command is ignored while `BUSY = 1`, else its body decides (R35, R285). -/
theorem reacts_acceptCommand {body : State → State} {op op' : Byte} {operands operands' : Operands} {s : State}
    (h : s.busy = false → Effect s (.command op operands) (body (emit (.cmd op' operands') s))) :
    Reacts (.next (acceptCommand op' operands' body s)) s (.command op operands) := by
  obtain ⟨hb, e⟩ | ⟨hb, e⟩ := acceptCommand_cases op' operands' body s
  · exact ⟨_, rfl, e ▸ .commandIgnored hb⟩
  · exact ⟨_, rfl, e ▸ h hb⟩

theorem effect_of_delivers {body : State → State} (h : Delivers body) {op op' : Byte} {operands operands' : Operands}
    {s : State} (hb : s.busy = false) : Effect s (.command op operands) (body (emit (.cmd op' operands') s)) := by
  obtain ⟨r, hr, e⟩ := h (emit (.cmd op' operands') s)
  exact e ▸ .commandCompletes hb (prepared_emit rfl s) rfl hr

theorem reacts_computes {i : Instr} (h : computes i = true) (op : Byte) (operands : Operands) (s : State) :
    Reacts (exec i s) s (.command op operands) := by
  obtain ⟨op', operands', body, hBody, e⟩ := exec_computes h s
  exact e ▸ reacts_acceptCommand (effect_of_delivers hBody)

/-- CONNECT: refused while Connected, else `PowerOn()` is requested (R184). -/
theorem reacts_connect (op : Byte) (operands : Operands) (s : State) :
    Reacts (exec .connect s) s (.command op operands) := by
  refine reacts_acceptCommand fun hb => ?_
  have prep : Prepared s (emit (.cmd Opcode.connect.code .none) s) := prepared_emit rfl s
  split
  next => exact .commandCompletes hb prep rfl (properRecord_error (by decide) none)
  next hc => exact .powersOn hb (Bool.eq_false_iff.2 hc) { prep with } rfl

/-- A TRANSCEIVE that passes its checks sends fragment 0, or fails with CRC selected (R190, R192). -/
theorem effect_sendFragment {op : Byte} {operands : Operands} {s u : State} (idle : s.busy = false)
    (conn : s.conn = true) (prep : Prepared s u) (outstanding : u.outstanding = s.outstanding) (busy : u.busy = true)
    (more : u.off < u.req.length) (reqFits : u.req.length ≤ Config.bufCap) (rsp : u.rsp = []) :
    Effect s (.command op operands) (sendFragment u) := by
  obtain ⟨-, edc, -, -⟩ | ⟨-, e⟩ := sendFragment_cases u
  · rw [sendFragment_eq_fragmentSent edc]
    exact .firstFragment idle conn prep busy (prep.edcType.symm.trans edc) more reqFits rsp
  · rw [e]
    exact .commandCompletes idle prep outstanding (properRecord_error (by decide) none)

/-- TRANSCEIVE: its checks, then the capability, then fragment 0 (R190, R255). -/
theorem reacts_transceive (req : Bytes) (op : Byte) (operands : Operands) (s : State) :
    Reacts (exec (.transceive req) s) s (.command op operands) := by
  refine reacts_acceptCommand fun hb => ?_
  have prep : Prepared s (emit (.cmd Opcode.transceive.code (.bytes req)) s) := prepared_emit rfl s
  have fails {e : ErrCode} (he : e ≠ .frmUnknownKind) := properRecord_error he none
  obtain ⟨hFits, e⟩ | ⟨-, e⟩ := withBuffer_cases req _ (emit (.cmd Opcode.transceive.code (.bytes req)) s)
  · rw [e]
    split
    next => exact .commandCompletes hb prep rfl (fails (by decide))
    next hne =>
      split
      next => exact .commandCompletes hb prep rfl (fails (by decide))
      next hc =>
        exact effect_sendFragment hb (by simpa using hc) { prep with } rfl rfl (Nat.pos_of_ne_zero hne) hFits rfl
  · rw [e]
    exact .commandCompletes hb prep rfl (fails (by decide))

/-- DISCONNECT (R200). -/
theorem reacts_disconnect (s : State) : Reacts (exec .disconnect s) s (.command 0x32 .none) :=
  reacts_acceptCommand fun hb => .disconnects hb (prepared_emit rfl s) rfl

/-- A defined opcode is the byte of its name (R70). -/
theorem opcodeOf_disconnect {op : Byte} (h : opcodeOf op = some .disconnect) : op = 0x32 := by
  revert op; decide

/-- The instructions that operand records give (R70). -/
theorem decodeOperands_ok {c : Opcode} {operands : Operands} {i : Instr} (h : decodeOperands c operands = .ok i) :
    computes i = true ∨ i = .connect ∨ (∃ req, i = .transceive req) ∨
      (i = .disconnect ∧ c = .disconnect ∧ operands = .none) := by
  unfold decodeOperands narrowApdu at h
  repeat' split at h
  all_goals cases h
  all_goals simp [computes]

/-- The instructions that the command port gives (R70). -/
theorem decodeCommand_ok {op : Byte} {operands : Operands} {i : Instr} (h : decodeCommand op operands = .ok i) :
    computes i = true ∨ i = .connect ∨ (∃ req, i = .transceive req) ∨
      (i = .disconnect ∧ op = 0x32 ∧ operands = .none) := by
  unfold decodeCommand at h
  split at h
  · cases h
  next c hc =>
    obtain hi | hi | hi | ⟨hi, rfl, ho⟩ := decodeOperands_ok h
    · exact .inl hi
    · exact .inr (.inl hi)
    · exact .inr (.inr (.inl hi))
    · exact .inr (.inr (.inr ⟨hi, opcodeOf_disconnect hc, ho⟩))

/-- No refusal of a command has the reserved error (R70, R71). -/
theorem rejectCode_of_decodeCommand {op : Byte} {operands : Operands} {e : Reject}
    (h : decodeCommand op operands = .error e) : rejectCode e ≠ .frmUnknownKind := by
  cases e with
  | frame c =>
    unfold decodeCommand decodeOperands narrowApdu at h
    repeat' split at h
    all_goals cases h
  | _ => decide

theorem reacts_step_command {s : State} {op : Byte} {operands : Operands} {rest : List Input}
    (h : s.pending = .command op operands :: rest) :
    Reacts (step s) { s with pending := rest } (.command op operands) := by
  rw [step_command h]
  cases hd : decodeCommand op operands with
  | error e => exact reacts_acceptCommand (effect_of_delivers (delivers_raise (rejectCode_of_decodeCommand hd)))
  | ok i =>
    obtain hi | rfl | ⟨req, rfl⟩ | ⟨rfl, rfl, rfl⟩ := decodeCommand_ok hd
    · exact reacts_computes hi ..
    · exact reacts_connect ..
    · exact reacts_transceive ..
    · exact reacts_disconnect _

/-! ### Register port words -/

/-- Bits 14:8 of a word as a number (R88). -/
theorem reservedBits_eq_zero_iff (w : BitVec 16) : w.extractLsb' 8 7 = 0 ↔ w.toNat / 256 % 128 = 0 := by
  rw [← BitVec.toNat_inj]
  simp [Nat.shiftRight_eq_div_pow]

theorem reserved_of_decodeRegPort {w : BitVec 16} {data : Byte} {e : Reject} (h : decodeRegPort w data = .error e) :
    w.toNat / 256 % 128 ≠ 0 := by
  unfold decodeRegPort at h
  split at h
  next hw => exact fun h0 => hw ((reservedBits_eq_zero_iff w).2 h0)
  next => split at h <;> cases h

/-- A read breaks no rule of the register port (R286). -/
theorem regRead_legal (idx : Byte) (s : State) : ¬ PortViolation (0x00#8 ++ idx) s := by
  have h : (0x00#8 ++ idx).toNat / 256 % 128 = 0 ∧ 0x00#8 ++ idx ≠ (0x8002 : BitVec 16) := by revert idx; decide
  rintro (h' | ⟨h', -⟩)
  · exact h' h.1
  · exact h.2 h'

/-- A write breaks R286 exactly as a write to `CFG` while `BUSY = 1`. -/
theorem regWrite_violation_iff (idx : Byte) (s : State) :
    PortViolation (0x80#8 ++ idx) s ↔ idx = 0x02 ∧ s.busy = true := by
  have h : (0x80#8 ++ idx).toNat / 256 % 128 = 0 ∧ (0x80#8 ++ idx = (0x8002 : BitVec 16) ↔ idx = 0x02) := by
    revert idx; decide
  rw [PortViolation, h.2]
  exact or_iff_right (not_not.2 h.1)

theorem reacts_regWrite (idx data : Byte) (s : State) :
    Reacts (execRegWrite idx data s) s (.regPort (0x80#8 ++ idx) data) := by
  unfold execRegWrite
  split
  next hi =>
    split
    next hb => exact ⟨_, rfl, .portViolation ((regWrite_violation_iff idx s).2 ⟨hi, hb⟩)⟩
    next hb => exact ⟨_, rfl, .cfgWrite (fun h => hb ((regWrite_violation_iff idx s).1 h).2) (Bool.eq_false_iff.2 hb)⟩
  next hi => exact ⟨_, rfl, .writeIgnored fun h => hi ((regWrite_violation_iff idx s).1 h).1⟩

theorem reacts_step_regPort {s : State} {w : BitVec 16} {data : Byte} {rest : List Input}
    (h : s.pending = .regPort w data :: rest) :
    Reacts (step s) { s with pending := rest } (.regPort w data) := by
  rw [step_regPort h]
  cases hd : decodeRegPort w data with
  | error e => exact ⟨_, rfl, .portViolation (.inl (reserved_of_decodeRegPort hd))⟩
  | ok i =>
    obtain ⟨idx, rfl, rfl⟩ | ⟨idx, rfl, rfl⟩ := decodeRegPort_ok hd
    · exact ⟨_, rfl, .regRead (regRead_legal idx _)⟩
    · exact reacts_regWrite ..

/-! ### The transport's answers -/

theorem phase_ne_idle {s : State} (h : s.phase = .tSend ∨ s.phase = .tRecv) : s.phase ≠ .idle := by
  rcases h with h | h <;> simp [h]

section Answers

variable {s u : State} {k : Nat} {a : Answer} (taken : Taken s u)

include taken

/-- An answer that raises an error completes the command. -/
theorem effect_raise (waits : s.phase ≠ .idle) {e : ErrCode} (he : e ≠ .frmUnknownKind) :
    Effect s (.answer k a) (raise e u) :=
  .answerCompletes waits taken.toPrepared taken.outstanding (properRecord_error he none)

theorem effect_powerOnDone (waits : s.phase = .cPower) : Effect s (.answer k a) (powerOnDone u) := by
  unfold powerOnDone
  split
  · exact .connects (.inl waits) taken
  · exact .requestsPps waits taken

theorem effect_ppsEcho (waits : s.phase = .cPps) (r : Bytes) : Effect s (.answer k a) (ppsEcho r u) := by
  unfold ppsEcho
  split
  · exact .connects (.inr waits) taken
  · exact effect_raise taken (by simp [waits]) (by decide)

theorem effect_proceed (waits : s.phase = .tSend) (edc : s.edcType = .lrc) :
    Effect s (.answer k a) (proceed u) := by
  obtain ⟨more, e⟩ | ⟨-, e⟩ := proceed_cases u
  · rw [e, sendFragment_eq_fragmentSent (taken.edcType.trans edc)]
    exact .nextFragment waits taken edc (taken.off ▸ taken.req ▸ more)
  · rw [e]; exact effect_raise taken (by simp [waits]) (by decide)

theorem effect_acknowledge (waits : s.phase = .tSend ∨ s.phase = .tRecv) (edc : s.edcType = .lrc)
    (sent : s.phase = .tSend → s.req.length ≤ s.off) {rsp : Bytes} (rspFits : rsp.length ≤ Config.bufCap)
    (rxseq chaining : Bit) :
    Effect s (.answer k a) (acknowledge chaining { u with rsp := rsp, rxseq := rxseq }) := by
  obtain ⟨-, -, e⟩ | ⟨-, h, -⟩ | ⟨-, e⟩ := acknowledge_cases chaining { u with rsp := rsp, rxseq := rxseq }
  · rw [e]; exact .acknowledges waits taken edc sent rspFits
  · cases (taken.edcType.trans edc).symm.trans h
  · rw [e]
    exact .answerCompletes (phase_ne_idle waits) { taken.toPrepared with } taken.outstanding
      (properRecord_ok _)

theorem effect_firstIBlock (waits : s.phase = .tSend) (edc : s.edcType = .lrc) {inf : Bytes}
    (hInf : inf.length ≤ 254) (seq chaining : Bit) : Effect s (.answer k a) (firstIBlock seq chaining inf u) := by
  unfold firstIBlock
  split
  next => exact effect_raise taken (by simp [waits]) (by decide)
  next h =>
    rw [taken.off, taken.req, Nat.not_lt] at h
    exact effect_acknowledge taken (.inl waits) edc (fun _ => h) (le_bufCap (by omega)) seq chaining

theorem effect_furtherIBlock (waits : s.phase = .tRecv) (edc : s.edcType = .lrc) (inf : Bytes) (seq chaining : Bit) :
    Effect s (.answer k a) (furtherIBlock seq chaining inf u) := by
  unfold furtherIBlock
  split
  next h =>
    rw [withinCap_iff, ← List.length_append] at h
    exact effect_acknowledge taken (.inr waits) edc (by simp [waits]) h seq chaining
  next => exact effect_raise taken (by simp [waits]) (by decide)

theorem effect_rblockReply (waits : s.phase = .tSend) (edc : s.edcType = .lrc) (error : RError) :
    Effect s (.answer k a) (rblockReply error u) := by
  cases error with
  | noError => exact effect_proceed taken waits edc
  | edcError => exact effect_raise taken (by simp [waits]) (by decide)
  | otherError => exact effect_raise taken (by simp [waits]) (by decide)

/-- A received block while a TRANSCEIVE waits, by the phase (R205). -/
theorem reacts_receive (waits : s.phase = .tSend ∨ s.phase = .tRecv)
    {inSend inRecv : State → State} (hSend : s.phase = .tSend → Effect s (.answer k a) (inSend u))
    (hRecv : s.phase = .tRecv → Effect s (.answer k a) (inRecv u)) :
    Reacts (receive inSend inRecv u) s (.answer k a) := by
  rw [← taken.phase] at hSend hRecv waits
  obtain ⟨h, e⟩ | ⟨h, e⟩ | ⟨h, -⟩ | ⟨h, -⟩ := receive_cases inSend inRecv u
  · exact ⟨_, e, hSend h⟩
  · exact ⟨_, e, hRecv h⟩
  · simp [h] at waits
  · rcases h with h | h <;> simp [h] at waits

end Answers

/-- The state a received reply leaves for the block's meaning (R44). -/
theorem taken_rx (r : Bytes) (s : State) : Taken s (emit (.rx r) (clearOutstanding s)) :=
  (taken_clearOutstanding s).emit rfl

/-- A reply while a TRANSCEIVE waits: what `ParseBlock` refuses completes the command, and a block does what its kind
does in the phase (R190, R205). -/
theorem reacts_takeBlock {s : State} (waits : s.phase = .tSend ∨ s.phase = .tRecv) (k : Nat) (a : Answer) (r : Bytes) :
    Reacts (runFetched (takeBlock r s)) s (.answer k a) := by
  have taken := taken_rx r s
  obtain ⟨blk, hParse, e⟩ | ⟨c, hParse, e⟩ := takeBlock_cases r s
  · rw [e]
    obtain ⟨edc, -⟩ := parseBlock_ok hParse
    cases blk with
    | i nad pcb inf c seq chaining =>
      exact reacts_receive taken waits
        (fun h => effect_firstIBlock taken h edc (parsed_inf_length_le hParse) seq chaining)
        (fun h => effect_furtherIBlock taken h edc inf seq chaining)
    | s nad pcb inf c =>
      exact reacts_receive taken waits (fun h => effect_proceed (taken.emit rfl) h edc)
        (fun _ => effect_raise taken (phase_ne_idle waits) (by decide))
    | r nad pcb inf c seq error =>
      exact reacts_receive taken waits (fun h => effect_rblockReply taken h edc error)
        (fun _ => effect_raise taken (phase_ne_idle waits) (by decide))
  · rw [e]
    exact ⟨_, rfl, effect_raise taken (phase_ne_idle waits) fun hc => raisable_parseBlock _ _ (hc ▸ hParse)⟩

/-- The answer to the outstanding request, by what is answered and the phase (R205). -/
theorem reacts_takeAnswer (k : Nat) (a : Answer) (s : State) :
    Reacts (runFetched (takeAnswer a s)) s (.answer k a) := by
  have taken := taken_clearOutstanding s
  unfold takeAnswer
  cases a with
  | err d =>
    have fails (waits : s.phase ≠ .idle) : Effect s (.answer k (.err d)) (takeError d s) :=
      .answerCompletes waits (taken.emit (e := .terr d) rfl).toPrepared rfl (properRecord_error (by decide) (some d))
    cases h : s.phase with
    | idle => exact ⟨_, rfl, .answerDiscarded⟩
    | _ => exact ⟨_, rfl, fails (by simp [h])⟩
  | powered =>
    cases h : s.phase with
    | cPower => exact ⟨_, rfl, effect_powerOnDone taken h⟩
    | _ => exact ⟨_, rfl, .answerDiscarded⟩
  | replied r =>
    cases h : s.phase with
    | cPps => exact ⟨_, rfl, effect_ppsEcho (taken_rx r s) h r⟩
    | tSend => exact reacts_takeBlock (.inl h) ..
    | tRecv => exact reacts_takeBlock (.inr h) ..
    | _ => exact ⟨_, rfl, .answerDiscarded⟩

theorem reacts_step_answer {s : State} {k : Nat} {a : Answer} {rest : List Input}
    (h : s.pending = .answer k a :: rest) : Reacts (step s) { s with pending := rest } (.answer k a) := by
  by_cases ho : ∃ rq, s.outstanding = some (k, rq)
  · obtain ⟨rq, ho⟩ := ho
    rw [step_answer h ho]
    exact reacts_takeAnswer k a { s with pending := rest }
  · rw [not_exists] at ho
    exact ⟨_, step_answer_other h ho, .answerDiscarded⟩

/-! ### Every step -/

/-- A step takes the first input at the ports and does what that input can do (R205). -/
theorem step_effect {s t : State} (h : step s = .next t) :
    ∃ x rest, s.pending = x :: rest ∧ Effect { s with pending := rest } x t := by
  cases hp : s.pending with
  | nil => rw [step_empty hp] at h; cases h
  | cons x rest =>
    have hReacts : Reacts (step s) { s with pending := rest } x := by
      cases x with
      | command op operands => exact reacts_step_command hp
      | regPort w data => exact reacts_step_regPort hp
      | reset => exact ⟨_, step_reset hp, .reset⟩
      | answer k a => exact reacts_step_answer hp
    obtain ⟨t', e, hEffect⟩ := hReacts
    cases e.symm.trans h
    exact ⟨x, rest, rfl, hEffect⟩

end Sys2Proof.Proofs
end

section
/-! PROOFS of family 10_state: what every step keeps and changes, read off the outcomes of a step (`Effect`), and the
statements about single inputs. -/

namespace Sys2Proof.Proofs

open Sys2Proof.Machine Sys2Proof.Spec

/-! ### The invariant -/

theorem inv_phase_idle {s : State} (h : Inv s) (hb : s.busy = false) : s.phase = .idle := by
  by_contra hp
  simp [h.busyIff.2 hp] at hb

theorem inv_outstanding_none {s : State} (h : Inv s) (hb : s.busy = false) : s.outstanding = none := by
  simpa only [requestFitsPhase, inv_phase_idle h hb] using h.request

/-- The invariant does not speak of the marks, the inputs and the outputs of the ports. -/
theorem inv_withPorts {s : State} (h : Inv s) (hostFault : Bool) (regReads : List Byte) (pending : List Input) :
    Inv { s with hostFault := hostFault, regReads := regReads, pending := pending } :=
  { busyIff := h.busyIff, request := h.request, numbered := h.numbered, connecting := h.connecting
    transceiving := fun hp =>
      have c := h.transceiving hp
      ⟨c.conn, c.edc, c.reqFits, c.offPos, c.offLe, c.rspFits⟩
    received := h.received, errListed := h.errListed }

/-- A block at rest meets the invariant as soon as no request is outstanding and `ERR` has a listed code. -/
theorem inv_of_idle {s : State} (busy : s.busy = false) (phase : s.phase = .idle) (outstanding : s.outstanding = none)
    (err : s.err ∈ listedCodes) : Inv s where
  busyIff := by simp [busy, phase]
  request := by simpa only [requestFitsPhase, phase] using outstanding
  numbered := by simp [outstanding]
  connecting := by simp [phase]
  transceiving := by simp [phase]
  received := by simp [phase]
  errListed := err

/-- A block that has just issued a request for a CONNECT. -/
theorem inv_issue_connecting {s : State} {phase : Phase} {rq : Request} (busy : s.busy = true) (conn : s.conn = false)
    (err : s.err ∈ listedCodes)
    (fits : phase = .cPower ∧ rq = .powerOn ∨ phase = .cPps ∧ rq = .exchange Config.ppsRequest) :
    Inv (issue phase rq s) := by
  obtain ⟨rfl, rfl⟩ | ⟨rfl, rfl⟩ := fits
  all_goals exact
    { busyIff := by simp [busy]
      request := ⟨_, rfl⟩
      numbered := by simp
      connecting := fun _ => conn
      transceiving := by simp
      received := by simp
      errListed := err }

/-- A block that has just issued a request for a TRANSCEIVE. -/
theorem inv_issue_transceiving {s : State} {phase : Phase} {b : Bytes} (waits : phase = .tSend ∨ phase = .tRecv)
    (busy : s.busy = true) (context : Transceiving s) (received : phase = .tRecv → s.off = s.req.length)
    (err : s.err ∈ listedCodes) : Inv (issue phase (.exchange b) s) where
  busyIff := by simpa [busy] using phase_ne_idle (s := { s with phase := phase }) waits
  request := by rcases waits with rfl | rfl <;> exact ⟨_, _, rfl⟩
  numbered := by simp
  connecting := by rcases waits with rfl | rfl <;> simp
  transceiving := fun _ => { context with }
  received := received
  errListed := err

/-- Fragment bytes come from the request, at least one while bytes are unsent. -/
theorem fragmentSize_bounds {s : State} (more : s.off < s.req.length) :
    0 < (fragmentBytes s).length ∧ s.off + (fragmentBytes s).length ≤ s.req.length := by
  rw [fragmentBytes_length]
  simp only [fragmentSize, unsent, Config.fragmentLen]
  omega

/-- The invariant holds after a fragment is sent. -/
theorem inv_fragmentSent {s : State} (busy : s.busy = true) (conn : s.conn = true) (edc : s.edcType = .lrc)
    (more : s.off < s.req.length) (reqFits : s.req.length ≤ Config.bufCap) (rspFits : s.rsp.length ≤ Config.bufCap)
    (err : s.err ∈ listedCodes) : Inv (fragmentSent s) := by
  obtain ⟨hPos, hLe⟩ := fragmentSize_bounds more
  exact inv_issue_transceiving (.inl rfl) busy ⟨conn, edc, reqFits, Nat.add_pos_right _ hPos, hLe, rspFits⟩ nofun err

/-- What an input can do keeps the invariant. -/
theorem Effect.inv {s t : State} {x : Input} (h : Effect s x t) (hs : Inv s) : Inv t := by
  cases h with
  | commandIgnored => exact inv_withPorts hs true s.regReads s.pending
  | commandCompletes idle _ outstanding proper =>
    exact inv_of_idle rfl rfl (outstanding.trans (inv_outstanding_none hs idle)) proper.listed
  | disconnects idle _ outstanding =>
    exact inv_of_idle rfl rfl (outstanding.trans (inv_outstanding_none hs idle)) (.head _)
  | powersOn _ free prep busy =>
    exact inv_issue_connecting busy (prep.conn.trans free) (prep.err ▸ hs.errListed) (.inl ⟨rfl, rfl⟩)
  | firstFragment _ conn prep busy edc more reqFits rsp =>
    exact inv_fragmentSent busy (prep.conn.trans conn) (prep.edcType.trans edc) more reqFits (by simp [rsp])
      (prep.err ▸ hs.errListed)
  | regRead => exact inv_withPorts hs s.hostFault _ s.pending
  | cfgWrite _ idle =>
    have hPhase := inv_phase_idle hs idle
    have hOutstanding := inv_outstanding_none hs idle
    exact inv_of_idle idle hPhase hOutstanding hs.errListed
  | writeIgnored => exact hs
  | portViolation => exact inv_withPorts hs true s.regReads s.pending
  | reset => exact inv_of_idle rfl rfl rfl (.head _)
  | answerDiscarded => exact hs
  | answerCompletes _ _ outstanding proper => exact inv_of_idle rfl rfl outstanding proper.listed
  | connects _ taken => exact inv_of_idle rfl rfl taken.outstanding (.head _)
  | requestsPps waits taken =>
    exact inv_issue_connecting (taken.busy.trans (hs.busyIff.2 (by simp [waits])))
      (taken.conn.trans (hs.connecting (.inl waits))) (taken.err ▸ hs.errListed) (.inr ⟨rfl, rfl⟩)
  | nextFragment waits taken edc more =>
    have c := hs.transceiving (.inl waits)
    exact inv_fragmentSent (taken.busy.trans (hs.busyIff.2 (by simp [waits]))) (taken.conn.trans c.conn)
      (taken.edcType.trans edc) (by rwa [taken.off, taken.req]) (by rw [taken.req]; exact c.reqFits)
      (by rw [taken.rsp]; exact c.rspFits) (taken.err ▸ hs.errListed)
  | acknowledges waits taken edc sent rspFits =>
    have c := hs.transceiving waits
    have hAll : s.off = s.req.length := waits.elim (fun h => c.offLe.antisymm (sent h)) hs.received
    have hOff := taken.off
    have hReq := taken.req
    exact inv_issue_transceiving (.inr rfl) (taken.busy.trans (hs.busyIff.2 (phase_ne_idle waits)))
      ⟨taken.conn.trans c.conn, taken.edcType.trans edc, hReq ▸ c.reqFits, hOff ▸ c.offPos,
        hOff ▸ hReq ▸ c.offLe, rspFits⟩
      (fun _ => hOff.trans (hAll.trans (congrArg _ hReq.symm))) (taken.err ▸ hs.errListed)

/-- Settles O47: every outcome of a step keeps the invariant. -/
theorem stepKeepsInvariant : Obligations.StepKeepsInvariant := by
  intro s t hs ht
  obtain ⟨x, rest, -, h⟩ := step_effect ht
  exact h.inv (inv_withPorts hs s.hostFault s.regReads rest)

/-- Settles O48: the reset state is at rest. -/
theorem resetStateMeetsInvariant : Obligations.ResetStateMeetsInvariant :=
  ⟨inv_of_idle rfl rfl rfl (.head _), rfl, rfl, rfl, rfl, rfl, rfl, rfl, rfl, rfl⟩

/-! ### The connection and the sequence counter -/

/-- Settles O49: of the outcomes of a step the two that send a fragment toggle `SEQ`, and the three named clear it. -/
theorem seqChangesOnlyByItsTransitions : Obligations.SeqChangesOnlyByItsTransitions := by
  intro s t _ ht
  obtain ⟨x, rest, hp, h⟩ := step_effect ht
  have sends {u : State} (prep : Prepared { s with pending := rest } u) :
      (fragmentSent u).seq = s.seq + 1 ∧ ∃ more inf,
        (fragmentSent u).outstanding = some (s.reqCount, .exchange (iBlock s.seq more inf)) ∧
        (fragmentSent u).trace.getLast? = some (.tx (iBlock s.seq more inf)) := by
    have hSeq : u.seq = s.seq := prep.seq
    have hCount : u.reqCount = s.reqCount := prep.reqCount
    obtain ⟨more, inf, hBlock⟩ : ∃ more inf, fragmentBlock u = iBlock s.seq more inf := hSeq ▸ ⟨_, _, rfl⟩
    exact ⟨by simp [fragmentSent, hSeq], more, inf, by simp [fragmentSent, hBlock, hCount],
      by simp [fragmentSent, hBlock, requestEvent]⟩
  cases h with
  | disconnects => exact .inr (.inr ⟨rfl, .inr (.inl ⟨rest, hp⟩)⟩)
  | reset => exact .inr (.inr ⟨rfl, .inl ⟨rest, hp⟩⟩)
  | connects waits => exact .inr (.inr ⟨rfl, .inr (.inr ⟨waits, rfl⟩)⟩)
  | firstFragment _ _ prep => exact .inr (.inl (sends prep))
  | nextFragment _ taken => exact .inr (.inl (sends taken.toPrepared))
  | commandCompletes _ prep | powersOn _ _ prep | answerCompletes _ prep => exact .inl prep.seq
  | requestsPps _ taken | acknowledges _ taken => exact .inl taken.seq
  | _ => exact .inl rfl

/-- Settles O50: the outcomes of a step that write `CONN` are a CONNECT's success, DISCONNECT and reset. -/
theorem connChangesOnlyByItsTransitions : Obligations.ConnChangesOnlyByItsTransitions := by
  intro s t hs ht hne
  obtain ⟨x, rest, hp, h⟩ := step_effect ht
  cases h with
  | disconnects _ prep => exact .inr ⟨rfl, .inr ⟨rest, hp, congrArg (· ++ [_]) prep.results⟩⟩
  | reset => exact .inr ⟨rfl, .inl ⟨rest, hp⟩⟩
  | connects waits taken =>
    exact .inl ⟨hs.connecting waits, rfl, waits, congrArg (· ++ [_]) taken.results⟩
  | commandCompletes _ prep | powersOn _ _ prep | answerCompletes _ prep | firstFragment _ _ prep =>
    exact absurd prep.conn hne
  | requestsPps _ taken | acknowledges _ taken | nextFragment _ taken => exact absurd taken.conn hne
  | _ => exact absurd rfl hne

/-! ### Records, marks and requests -/

/-- Settles O51: an outcome of a step delivers one record and its code, or neither, and reset writes `ERR` alone. -/
theorem errHoldsCodeOfLastResult : Obligations.ErrHoldsCodeOfLastResult := by
  intro s t ht
  obtain ⟨x, rest, hp, h⟩ := step_effect ht
  have delivers {r : ResultRecord} {u : State} (proper : ProperRecord r) (hRes : u.results = s.results) :
      ∃ r', (deliver r u).results = s.results ++ [r'] ∧ (deliver r u).err = r'.code ∧
        (r'.status = .ok ↔ r'.code = 0x00) :=
    ⟨r, congrArg (· ++ [r]) hRes, rfl, proper.okIff⟩
  cases h with
  | commandCompletes _ prep _ proper | answerCompletes _ prep _ proper => exact .inl (delivers proper prep.results)
  | disconnects _ prep => exact .inl (delivers (properRecord_ok none) prep.results)
  | connects _ taken => exact .inl (delivers (properRecord_ok none) taken.results)
  | reset => exact .inr (.inr ⟨rfl, rfl, rest, hp⟩)
  | powersOn _ _ prep | firstFragment _ _ prep => exact .inr (.inl ⟨prep.results, prep.err⟩)
  | requestsPps _ taken | acknowledges _ taken | nextFragment _ taken => exact .inr (.inl ⟨taken.results, taken.err⟩)
  | _ => exact .inr (.inl ⟨rfl, rfl⟩)

/-- The input breaks a rule of R285 or R286. -/
def Violation (s : State) : Input → Prop
  | .command _ _ => s.busy = true
  | .regPort w _ => PortViolation w s
  | .reset => False
  | .answer _ _ => False

/-- `HOSTFAULT` is set by a violation and else left, by the outcome (R43). -/
theorem Effect.hostFault {s t : State} {x : Input} (h : Effect s x t) :
    t.hostFault = true ↔ s.hostFault = true ∨ Violation s x := by
  have violated (hv : Violation s x) : true = true ↔ s.hostFault = true ∨ Violation s x := by simp [hv]
  have kept {b : Bool} (e : b = s.hostFault) (hv : ¬ Violation s x) : b = true ↔ s.hostFault = true ∨ Violation s x := by
    simp [e, hv]
  cases h with
  | commandIgnored busy => exact violated busy
  | portViolation violation => exact violated violation
  | commandCompletes idle prep | disconnects idle prep | powersOn idle _ prep | firstFragment idle _ prep =>
    exact kept prep.hostFault (by simp [Violation, idle])
  | regRead legal | cfgWrite legal | writeIgnored legal => exact kept rfl legal
  | reset | answerDiscarded => exact kept rfl id
  | answerCompletes _ prep => exact kept prep.hostFault id
  | connects _ taken | requestsPps _ taken | nextFragment _ taken | acknowledges _ taken =>
    exact kept taken.hostFault id

/-- Settles O53: `HOSTFAULT` changes only by the violations of R285 and R286. -/
theorem hostFaultIsSetByViolationsAndNeverCleared : Obligations.HostFaultIsSetByViolationsAndNeverCleared := by
  intro s t ht
  obtain ⟨x, rest, hp, h⟩ := step_effect ht
  rw [h.hostFault, hp]
  cases x <;> simp [Violation, PortViolation]

/-- The blocks the engine sends (R57, R210). -/
def OwnBlock (b : Bytes) : Prop :=
  b = [0xFF, 0x01, 0xFE] ∨ (∃ n, b = ackBlock n) ∨ ∃ seq more inf, inf.length ≤ 254 ∧ b = iBlock seq more inf

/-- What a step sends: nothing, `PowerOn()`, or one block of the engine's own (R34, R57). -/
def Sends (s t : State) : Prop :=
  ∃ evs, t.trace = s.trace ++ evs ∧
    ((t.reqCount = s.reqCount ∧ sentBlocks evs = []) ∨
     (t.reqCount = s.reqCount + 1 ∧ t.outstanding = some (s.reqCount, .powerOn) ∧ sentBlocks evs = [] ∧
      evs.getLast? = some .powerOn) ∨
     (t.reqCount = s.reqCount + 1 ∧ ∃ b, t.outstanding = some (s.reqCount, .exchange b) ∧ sentBlocks evs = [b] ∧
      evs.getLast? = some (.tx b) ∧ OwnBlock b))

/-- An outcome that issues no request. -/
theorem sends_none {s t : State} (count : t.reqCount = s.reqCount) {evs : List Event}
    (trace : t.trace = s.trace ++ evs) (quiet : sentBlocks evs = []) : Sends s t :=
  ⟨evs, trace, .inl ⟨count, quiet⟩⟩

section Outcomes

variable {s u : State} (count : u.reqCount = s.reqCount) (events : ∃ evs, u.trace = s.trace ++ evs ∧ sentBlocks evs = [])

include count events

/-- A record is delivered and no request issued. -/
theorem sends_deliver (r : ResultRecord) : Sends s (deliver r u) := by
  obtain ⟨evs, hTrace, hQuiet⟩ := events
  refine sends_none count (evs := evs ++ [.result r.status r.code r.value]) ?_ ?_
  · rw [deliver_trace, hTrace, List.append_assoc]
  · rw [sentBlocks_append, hQuiet]; rfl

theorem sends_powerOn (phase : Phase) : Sends s (issue phase .powerOn u) := by
  obtain ⟨evs, hTrace, hQuiet⟩ := events
  refine ⟨evs ++ [.powerOn], ?_, .inr (.inl ⟨?_, ?_, ?_, by simp⟩)⟩
  · simp [hTrace, requestEvent]
  · simp [count]
  · simp [count]
  · rw [sentBlocks_append, hQuiet]; rfl

theorem sends_exchange (phase : Phase) {b : Bytes} (own : OwnBlock b) : Sends s (issue phase (.exchange b) u) := by
  obtain ⟨evs, hTrace, hQuiet⟩ := events
  refine ⟨evs ++ [.tx b], ?_, .inr (.inr ⟨?_, b, ?_, ?_, by simp, own⟩)⟩
  · simp [hTrace, requestEvent]
  · simp [count]
  · simp [count]
  · rw [sentBlocks_append, hQuiet]; rfl

theorem sends_fragmentSent : Sends s (fragmentSent u) :=
  sends_exchange (u := { u with seq := u.seq + 1, off := u.off + (fragmentBytes u).length }) count events .tSend
    (.inr (.inr ⟨_, _, _, fragmentBytes_length_le u, rfl⟩))

end Outcomes

/-- Whatever input a step takes, it sends blocks of the engine's own and at most one. -/
theorem Effect.sends {s t : State} {x : Input} (h : Effect s x t) : Sends s t := by
  cases h with
  | commandIgnored | regRead | cfgWrite | writeIgnored | portViolation | answerDiscarded =>
    exact sends_none rfl (List.append_nil _).symm rfl
  | reset => exact sends_none rfl rfl rfl
  | commandCompletes _ prep | disconnects _ prep | answerCompletes _ prep =>
    exact sends_deliver prep.reqCount prep.events _
  | connects _ taken => exact sends_deliver taken.reqCount taken.events _
  | powersOn _ _ prep => exact sends_powerOn prep.reqCount prep.events _
  | requestsPps _ taken => exact sends_exchange taken.reqCount taken.events _ (.inl rfl)
  | firstFragment _ _ prep => exact sends_fragmentSent prep.reqCount prep.events
  | nextFragment _ taken => exact sends_fragmentSent taken.reqCount taken.events
  | acknowledges _ taken => exact sends_exchange taken.reqCount taken.events .tRecv (.inr (.inl ⟨_, rfl⟩))

/-- Settles O54, by the outcome of the step. -/
theorem stepSendsOnlyItsOwnBlocks : Obligations.StepSendsOnlyItsOwnBlocks := by
  intro s t ht
  obtain ⟨x, rest, -, h⟩ := step_effect ht
  exact h.sends

/-! ### Single inputs -/

/-- Settles O14: what reset writes and what it leaves (R280). -/
theorem resetInputRestoresResetState : Obligations.ResetInputRestoresResetState := by
  intro s rest hp
  exact ⟨_, step_reset hp, rfl, rfl, rfl, rfl, rfl, rfl, rfl, rfl, rfl, rfl, rfl, rfl, rfl, rfl⟩

/-- Settles O7, port by port. -/
theorem stepExecutesDecodedInstruction : Obligations.StepExecutesDecodedInstruction := by
  refine ⟨fun s op operands rest i hp hd => ?_, fun s w data rest i hp hd => ?_,
    fun s k rq r rest i hp ho waits edc hd => ?_⟩
  · have hd' : decodeCommand op operands = .ok i := hd
    rw [step_command hp, hd']
  · have hd' : decodeRegPort w data = .ok i := hd
    rw [step_regPort hp, hd']
  · have hTake : takeAnswer (.replied r) { s with pending := rest } = takeBlock r { s with pending := rest } :=
      takeAnswer_block waits
    rw [step_answer hp ho, hTake]
    have hd' : decodeFrame r = .ok i := hd
    obtain ⟨blk, hParse, e⟩ | ⟨c, hParse, -⟩ := takeBlock_cases r { s with pending := rest }
    all_goals
      have hParse' : parseBlock .lrc r = _ := edc ▸ hParse
      simp only [decodeFrame, hParse'] at hd'
    · cases hd'
      rw [e]; rfl
    · cases hd'

/-- A received block where no TRANSCEIVE waits, whatever its kind (R184, log entry 10). -/
theorem receive_outside (inSend inRecv : State → State) (s : State) :
    (s.phase = .cPps → Answers (receive inSend inRecv s) (endsErr [] 0x40 s)) ∧
    ((s.phase = .idle ∨ s.phase = .cPower) → receive inSend inRecv s = .next s) := by
  have hErr : raise .connPpsMismatch s = endsErr [] 0x40 s := by simp [raise, deliver, endsErr, endsWith, errCode]
  constructor
  · intro h
    exact ⟨raise .connPpsMismatch s, by simp [receive, h], congrArg visible hErr⟩
  · rintro (h | h) <;> simp [receive, h]

/-- Settles O43: the three kinds of block share `receive`. -/
theorem receivedBlockOutsideTransceive : Obligations.ReceivedBlockOutsideTransceive := by
  rintro s nad seq chaining low inf low6 bit5 mid error i (rfl | rfl | rfl)
  · exact receive_outside (firstIBlock seq chaining inf) (furtherIBlock seq chaining inf) s
  · exact receive_outside (sblockReply (pcbOfS low6) inf) (raise .protoExpectedIblock) s
  · exact receive_outside (rblockReply error) (raise .protoExpectedIblock) s

end Sys2Proof.Proofs
end

section
/-! PROOFS of family 20_memory, O11: every command with a `Bytes` operand tests that operand's length first (R51). -/

namespace Sys2Proof.Proofs

open Sys2Proof.Machine Sys2Proof.Spec

/-- Raising an error after the command's event is the completion the statements write out (R44, R262). -/
theorem raise_emit_cmd (e : ErrCode) (op : Byte) (operands : Operands) (s : State) :
    raise e (emit (.cmd op operands) s) = errAfter op operands (errCode e) s := rfl

/-- A command with a `Bytes` operand is accepted under that operand's words, and its body is behind the buffer check
(R51). -/
theorem exec_bytesOperand {i : Instr} {b : Bytes} {op : Byte} {operands : Operands}
    (h : bytesOperand i = some (b, op, operands)) (s : State) :
    ∃ body, exec i s = .next (acceptCommand op operands (withBuffer b body) s) := by
  cases i with
  | edcCompute | apduEncode | apduDecode | rapduEncode | rapduDecode | apduChain | frameBuildI | frameParse
  | transceive => cases h; exact ⟨_, rfl⟩
  | _ => cases h

/-- Settles O11: an accepted command whose buffer check fails raises `ENC_BAD_OPERAND` and does nothing else. -/
theorem overlongBytesOperandIsRefused : Obligations.OverlongBytesOperandIsRefused := by
  intro s i b op operands h idle overlong
  obtain ⟨body, hExec⟩ := exec_bytesOperand h s
  have refused : acceptCommand op operands (withBuffer b body) s = errAfter op operands 0x14 s := by
    rw [acceptCommand_of_idle idle, withBuffer_of_overlong overlong, raise_emit_cmd]; rfl
  exact ⟨_, hExec, congrArg visible refused⟩

end Sys2Proof.Proofs
end

section
/-! PROOFS of family 30_encoding: the decoder and the encoder undo each other, and what the block does with a command that
the decoder refuses. -/

namespace Sys2Proof.Proofs

open Sys2Proof.Machine Sys2Proof.Spec

/-! ### The opcode table -/

/-- A defined opcode is the byte of its name (R70). -/
theorem code_of_opcodeOf {op : Byte} {c : Opcode} (h : opcodeOf op = some c) : c.code = op := by
  have hRows : ∀ r ∈ opcodeTable, r.2.code = r.1 := by decide
  obtain ⟨before, after, hTable, -⟩ := List.lookup_eq_some_iff.1 h
  exact hRows (op, c) (by simp [hTable])

/-- An opcode outside the table is reserved (R71). -/
theorem opcodeOf_reserved {op : Byte} (h : op ∉ definedOpcodes) : opcodeOf op = none := by
  have hRows : ∀ r ∈ opcodeTable, r.1 ∈ definedOpcodes := by decide
  refine List.lookup_eq_none_iff.2 fun r hr => bne_iff_ne.2 ?_
  rintro rfl
  exact h (hRows r hr)

/-- A command with a defined opcode is decoded by its operand record (R70). -/
theorem decodeCommand_of_opcode {op : Byte} {c : Opcode} (h : opcodeOf op = some c) (operands : Operands) :
    decodeCommand op operands = decodeOperands c operands := by
  simp only [decodeCommand, h]

/-! ### Operand ranges -/

/-- The bytes of an APDU are in range as operands. -/
theorem narrowApdu_toNat (a : CommandApdu) :
    narrowApdu a.cla.toNat a.ins.toNat a.p1.toNat a.p2.toNat a.data a.ne = .ok a := by
  rw [narrowApdu, if_pos ⟨a.cla.isLt, a.ins.isLt, a.p1.isLt, a.p2.isLt⟩]
  simp

/-- A command made of an APDU narrowed from operands has those operands. -/
theorem map_narrowApdu_ok {cla ins p1 p2 ne : Nat} {data : Bytes} {f : CommandApdu → Instr} {i : Instr}
    (h : (narrowApdu cla ins p1 p2 data ne).map f = .ok i) :
    ∃ a, i = f a ∧ apduOps a = .apdu cla ins p1 p2 data ne := by
  unfold narrowApdu at h
  split at h
  next hRange =>
    obtain ⟨hCla, hIns, hP1, hP2⟩ := hRange
    cases h
    exact ⟨_, rfl, by simp [apduOps, Nat.mod_eq_of_lt, hCla, hIns, hP1, hP2]⟩
  next => cases h

/-- An APDU with a `byte` operand of 256 or more is refused. -/
theorem narrowApdu_outOfRange {cla ins p1 p2 : Nat} (h : 256 ≤ cla ∨ 256 ≤ ins ∨ 256 ≤ p1 ∨ 256 ≤ p2) (data : Bytes)
    (ne : Nat) : narrowApdu cla ins p1 p2 data ne = .error .operandRange :=
  if_neg (by omega)

/-! ### Register port words -/

/-- The fields of a register port word, from its two bytes (R88). -/
theorem regPort_fields (hi idx : Byte) :
    (hi ++ idx).extractLsb' 8 7 = hi.extractLsb' 0 7 ∧ (hi ++ idx).extractLsb' 15 1 = hi.extractLsb' 7 1 ∧
      (hi ++ idx).extractLsb' 0 8 = idx :=
  ⟨BitVec.extractLsb'_append_eq_of_le (by decide), BitVec.extractLsb'_append_eq_of_le (by decide),
    BitVec.extractLsb'_append_eq_right⟩

theorem decodeRegPort_regRead (idx data : Byte) : decodeRegPort (0x00#8 ++ idx) data = .ok (.regRead idx) := by
  obtain ⟨hReserved, hWrite, hIdx⟩ := regPort_fields 0x00#8 idx
  rw [decodeRegPort, hReserved, hWrite, hIdx]; rfl

theorem decodeRegPort_regWrite (idx data : Byte) : decodeRegPort (0x80#8 ++ idx) data = .ok (.regWrite idx data) := by
  obtain ⟨hReserved, hWrite, hIdx⟩ := regPort_fields 0x80#8 idx
  rw [decodeRegPort, hReserved, hWrite, hIdx]; rfl

/-! ### Received blocks -/

/-- `ParseBlock` gives back the fields of an I-block laid out with its LRC (R73, R160). -/
theorem parseBlock_pcbI (nad : Byte) (seq chaining : Bit) (low : BitVec 5) {inf : Bytes} (h : inf.length ≤ 254) :
    ∃ edc, parseBlock .lrc (frameBytes nad (pcbOfI seq chaining low) inf) =
      .ok (.i nad (pcbOfI seq chaining low) inf edc seq chaining) := by
  obtain ⟨hNad, hPcb, -, hInf, -⟩ := frameBytes_fields nad (pcbOfI seq chaining low) inf h
  obtain ⟨hSeq, hChaining, -⟩ := pcb_fields.1 seq chaining low
  rw [parseBlock_frameBytes _ _ _ h]
  simp [classify, hNad, hPcb, hInf, hSeq, hChaining, kindOf_pcb.1]

/-- The same of an S-block (R75). -/
theorem parseBlock_pcbS (nad : Byte) (low : BitVec 6) {inf : Bytes} (h : inf.length ≤ 254) :
    ∃ edc, parseBlock .lrc (frameBytes nad (pcbOfS low) inf) = .ok (.s nad (pcbOfS low) inf edc) := by
  obtain ⟨hNad, hPcb, -, hInf, -⟩ := frameBytes_fields nad (pcbOfS low) inf h
  rw [parseBlock_frameBytes _ _ _ h]
  simp [classify, hNad, hPcb, hInf, kindOf_pcb.2.1]

/-- The same of an R-block, which has no INF (R74, R77). -/
theorem parseBlock_pcbR (nad : Byte) (bit5 seq : Bit) (mid : BitVec 2) (error : RError) :
    ∃ edc, parseBlock .lrc (frameBytes nad (pcbOfR bit5 seq mid error) []) =
      .ok (.r nad (pcbOfR bit5 seq mid error) [] edc seq error) := by
  obtain ⟨hNad, hPcb, -⟩ := frameBytes_fields nad (pcbOfR bit5 seq mid error) [] (Nat.zero_le _)
  obtain ⟨-, hSeq, -, hError⟩ := pcb_fields.2.2 bit5 seq mid error
  rw [parseBlock_frameBytes _ _ _ (Nat.zero_le _)]
  simp [classify, hNad, hPcb, hSeq, hError, kindOf_pcb.2.2]

/-- A sequence that parses decodes to the instruction its block is (R160). -/
theorem decodeFrame_of_parse {b : Bytes} {blk : Block} (h : parseBlock .lrc b = .ok blk) :
    decodeFrame b = .ok (instrOfBlock blk) := by
  simp only [decodeFrame, h]

theorem decodeFrame_pcbI (nad : Byte) (seq chaining : Bit) (low : BitVec 5) {inf : Bytes} (h : inf.length ≤ 254) :
    decodeFrame (frameBytes nad (pcbOfI seq chaining low) inf) = .ok (.pcbI nad seq chaining low inf) := by
  obtain ⟨edc, hParse⟩ := parseBlock_pcbI nad seq chaining low h
  obtain ⟨-, -, hLow⟩ := pcb_fields.1 seq chaining low
  rw [decodeFrame_of_parse hParse, instrOfBlock, hLow]

theorem decodeFrame_pcbS (nad : Byte) (low : BitVec 6) {inf : Bytes} (h : inf.length ≤ 254) :
    decodeFrame (frameBytes nad (pcbOfS low) inf) = .ok (.pcbS nad low inf) := by
  obtain ⟨edc, hParse⟩ := parseBlock_pcbS nad low h
  rw [decodeFrame_of_parse hParse, instrOfBlock, pcb_fields.2.1]

theorem decodeFrame_pcbR (nad : Byte) (bit5 seq : Bit) (mid : BitVec 2) (error : RError) :
    decodeFrame (frameBytes nad (pcbOfR bit5 seq mid error) []) = .ok (.pcbR nad bit5 seq mid error) := by
  obtain ⟨edc, hParse⟩ := parseBlock_pcbR nad bit5 seq mid error
  obtain ⟨hBit5, -, hMid, -⟩ := pcb_fields.2.2 bit5 seq mid error
  rw [decodeFrame_of_parse hParse, instrOfBlock, hBit5, hMid]

/-! ### Decoding an encoding -/

/-- A block instruction is well formed when its INF field fits (R72, R78). -/
theorem infFits_iff (inf : Bytes) : infFits inf = true ↔ inf.length ≤ 254 := decide_eq_true_iff

/-- Settles O1, port by port: a command by its opcode and the ranges of its operands, a register port word by its bits, a
block by `ParseBlock` and the bits of its PCB. -/
theorem decodeOfEncodeIsIdentity : Obligations.DecodeOfEncodeIsIdentity := by
  intro i hi
  cases i with
  | edcCompute | edcLength | apduDecode | rapduDecode | frameParse | connect | transceive | disconnect => rfl
  | apduEncode a => exact congrArg (Except.map Instr.apduEncode) (narrowApdu_toNat a)
  | apduChain a seg => exact congrArg (Except.map (Instr.apduChain · seg)) (narrowApdu_toNat a)
  | rapduEncode r =>
    refine (if_pos ⟨r.sw1.isLt, r.sw2.isLt⟩).trans ?_
    simp
  | frameBuildI seq chaining inf =>
    refine (if_pos ⟨seq.isLt, chaining.isLt⟩).trans ?_
    simp
  | frameBuildR n =>
    refine (if_pos n.isLt).trans ?_
    simp
  | regRead idx => exact decodeRegPort_regRead idx 0
  | regWrite idx value => exact decodeRegPort_regWrite idx value
  | pcbI nad seq chaining low inf => exact decodeFrame_pcbI nad seq chaining low ((infFits_iff inf).1 hi)
  | pcbS nad low inf => exact decodeFrame_pcbS nad low ((infFits_iff inf).1 hi)
  | pcbR nad bit5 seq mid error => exact decodeFrame_pcbR nad bit5 seq mid error

/-! ### Encoding what was decoded -/

/-- An operand record that an opcode accepts is the one the instruction encodes to (R70). -/
theorem encode_of_decodeOperands {c : Opcode} {operands : Operands} {i : Instr}
    (h : decodeOperands c operands = .ok i) : encode i = .command c.code operands ∧ i.wf = true := by
  unfold decodeOperands at h
  split at h
  case h_14 => cases h -- an operand record that is not the opcode's
  case h_3 | h_7 => -- APDU_ENCODE and APDU_CHAIN
    obtain ⟨a, rfl, hOps⟩ := map_narrowApdu_ok h
    cases hOps
    exact ⟨rfl, rfl⟩
  case h_5 | h_8 | h_9 => -- RAPDU_ENCODE, FRAME_BUILD_I and FRAME_BUILD_R
    split at h
    next hRange =>
      cases h
      simp [encode, Opcode.code, Instr.wf, Nat.mod_eq_of_lt, hRange]
    next => cases h
  all_goals -- the commands whose operands have no range
    cases h
    exact ⟨rfl, rfl⟩

/-- Settles O2: the opcode is the byte of its name, and narrowing drops nothing of an operand in range. -/
theorem encodeOfDecodedCommandIsIdentity : Obligations.EncodeOfDecodedCommandIsIdentity := by
  intro op operands i h
  cases hop : opcodeOf op with
  | none => simp [decodeCommand, hop] at h
  | some c =>
    rw [decodeCommand_of_opcode hop] at h
    rw [← code_of_opcodeOf hop]
    exact encode_of_decodeOperands h

/-- Settles O5: the masks of R76 by the number of the PCB, and no check of `ParseBlock` answers the reserved error. -/
theorem everyPcbHasOneKind : Obligations.EveryPcbHasOneKind :=
  ⟨by decide, raisable_parseBlock⟩

/-- Settles O6, word by word. -/
theorem wordsOfTheTablesDecode : Obligations.WordsOfTheTablesDecode :=
  ⟨rfl, rfl, rfl, rfl, rfl, rfl, rfl, by decide, by decide, by decide⟩

/-! ### Refused commands -/

/-- A command the decoder refuses while `BUSY = 0` is accepted and completes with the refusal's error (R70, R71). -/
theorem step_refusedCommand {s : State} {op : Byte} {operands : Operands} {rest : List Input} {e : Reject}
    (hp : s.pending = .command op operands :: rest) (idle : s.busy = false)
    (refused : decodeCommand op operands = .error e) :
    step s = .next (errAfter op operands (errCode (rejectCode e)) { s with pending := rest }) := by
  have completes : acceptCommand op operands (raise (rejectCode e)) { s with pending := rest } =
      errAfter op operands (errCode (rejectCode e)) { s with pending := rest } :=
    acceptCommand_of_idle (s := { s with pending := rest }) idle op operands _
  rw [step_command hp, refused]
  exact congrArg Host.Outcome.next completes

/-- Settles O9: a reserved opcode is refused before its operands are read. -/
theorem reservedOpcodeCompletesWithError : Obligations.ReservedOpcodeCompletesWithError := by
  intro s op operands rest hp idle reserved
  have refused : decodeCommand op operands = .error .reservedOpcode := by
    simp only [decodeCommand, opcodeOf_reserved reserved]
  exact ⟨_, _, step_refusedCommand hp idle refused, rfl⟩

/-- Every command with an operand out of its range is refused for that (R70). -/
theorem decodeCommand_outOfRange {op : Byte} {operands : Operands} (h : OutOfRange op operands) :
    decodeCommand op operands = .error .operandRange := by
  cases operands with
  | apdu cla ins p1 p2 data ne =>
    obtain ⟨rfl, h⟩ := h
    exact congrArg (Except.map _) (narrowApdu_outOfRange h data ne)
  | rapdu body sw1 sw2 =>
    obtain ⟨rfl, h⟩ := h
    exact if_neg (by omega)
  | apduSeg cla ins p1 p2 data ne seg =>
    obtain ⟨rfl, h⟩ := h
    exact congrArg (Except.map _) (narrowApdu_outOfRange h data ne)
  | frameI seq chaining inf =>
    obtain ⟨rfl, h⟩ := h
    exact if_neg (by omega)
  | ackseq n =>
    obtain ⟨rfl, h⟩ := h
    exact if_neg (by omega)
  | none => exact h.elim
  | bytesEnd bytes stop => exact h.elim
  | bytes bytes => exact h.elim

/-- Settles O10: the range check is the decoder's, before any check of the command's own. -/
theorem operandOutsideDeclaredRangeIsRefused : Obligations.OperandOutsideDeclaredRangeIsRefused :=
  fun _ _ _ _ hp idle outOfRange => ⟨_, step_refusedCommand hp idle (decodeCommand_outOfRange outOfRange), rfl⟩

end Sys2Proof.Proofs
end

section
/-! PROOFS of family 30_encoding, O55: with CRC selected no block is built, so what a request to the transport writes stays
as it is. -/

namespace Sys2Proof.Proofs

open Sys2Proof.Machine Sys2Proof.Spec

/-- What a request to the transport writes: the outstanding request, the number of requests, and `SEQ` (R34, R192). -/
def sending (s : State) : Option (Nat × Request) × Nat × Bit := (s.outstanding, s.reqCount, s.seq)

/-- With CRC selected the next fragment fails (R141, R192). -/
theorem sendFragment_sending {s : State} (crc : s.edcType = .crc) : sending (sendFragment s) = sending s := by
  obtain ⟨-, lrc, -⟩ | ⟨-, e⟩ := sendFragment_cases s
  · cases lrc.symm.trans crc
  · rw [e]; rfl

theorem proceed_sending {s : State} (crc : s.edcType = .crc) : sending (proceed s) = sending s := by
  obtain ⟨-, e⟩ | ⟨-, e⟩ := proceed_cases s
  · rw [e, sendFragment_sending crc]
  · rw [e]; rfl

/-- With CRC selected an acknowledgement fails (R141, R198). -/
theorem acknowledge_sending {s : State} (crc : s.edcType = .crc) (chaining : Bit) :
    sending (acknowledge chaining s) = sending s := by
  obtain ⟨-, lrc, -⟩ | ⟨-, -, e⟩ | ⟨-, e⟩ := acknowledge_cases chaining s
  · cases lrc.symm.trans crc
  · rw [e]; rfl
  · rw [e]; rfl

theorem firstIBlock_sending {s : State} (crc : s.edcType = .crc) (seq chaining : Bit) (inf : Bytes) :
    sending (firstIBlock seq chaining inf s) = sending s := by
  unfold firstIBlock
  split
  · rfl
  · exact acknowledge_sending (s := { s with rsp := inf, rxseq := seq }) crc chaining

theorem furtherIBlock_sending {s : State} (crc : s.edcType = .crc) (seq chaining : Bit) (inf : Bytes) :
    sending (furtherIBlock seq chaining inf s) = sending s := by
  unfold furtherIBlock
  split
  · exact acknowledge_sending (s := { s with rsp := s.rsp ++ inf, rxseq := seq }) crc chaining
  · rfl

theorem sblockReply_sending {s : State} (crc : s.edcType = .crc) (pcb : Byte) (inf : Bytes) :
    sending (sblockReply pcb inf s) = sending s :=
  proceed_sending (s := emit (.sblock pcb inf) s) crc

theorem rblockReply_sending {s : State} (crc : s.edcType = .crc) (error : RError) :
    sending (rblockReply error s) = sending s := by
  cases error with
  | noError => exact proceed_sending crc
  | edcError => rfl
  | otherError => rfl

/-- The step answers a next state and sends nothing. -/
def SendsNothing (r : Result) (s : State) : Prop := ∃ t, r = .next t ∧ sending t = sending s

theorem sendsNothing_receive {inSend inRecv : State → State} {s : State} (hSend : sending (inSend s) = sending s)
    (hRecv : sending (inRecv s) = sending s) : SendsNothing (receive inSend inRecv s) s := by
  obtain ⟨-, e⟩ | ⟨-, e⟩ | ⟨-, e⟩ | ⟨-, e⟩ := receive_cases inSend inRecv s
  · exact ⟨_, e, hSend⟩
  · exact ⟨_, e, hRecv⟩
  · exact ⟨_, e, rfl⟩
  · exact ⟨_, e, rfl⟩

/-- A command is ignored while `BUSY = 1`, else its body decides (R285). -/
theorem acceptCommand_sending {op : Byte} {operands : Operands} {body : State → State} {s : State}
    (h : sending (body (emit (.cmd op operands) s)) = sending s) :
    sending (acceptCommand op operands body s) = sending s := by
  obtain ⟨-, e⟩ | ⟨-, e⟩ := acceptCommand_cases op operands body s
  · rw [e]; rfl
  · rw [e, h]

/-- TRANSCEIVE with CRC selected ends at one of its checks or at fragment 0 (R190, R192). -/
theorem sendsNothing_transceive {s : State} (crc : s.edcType = .crc) (req : Bytes) :
    SendsNothing (exec (.transceive req) s) s := by
  refine ⟨_, rfl, acceptCommand_sending ?_⟩
  obtain ⟨-, e⟩ | ⟨-, e⟩ := withBuffer_cases req _ (emit (.cmd Opcode.transceive.code (.bytes req)) s)
  · rw [e]
    split
    · rfl
    split
    · rfl
    · exact sendFragment_sending crc
  · rw [e]; rfl

theorem sendsNothing_regWrite (idx value : Byte) (s : State) : SendsNothing (exec (.regWrite idx value) s) s := by
  show SendsNothing (execRegWrite idx value s) s
  unfold execRegWrite
  split
  · split <;> exact ⟨_, rfl, rfl⟩
  · exact ⟨_, rfl, rfl⟩

/-- With CRC selected only CONNECT and DISCONNECT write what a request writes (R141, R192). -/
theorem sendsNothing_exec {s : State} (crc : s.edcType = .crc) {i : Instr} (hConnect : i ≠ .connect)
    (hDisconnect : i ≠ .disconnect) : SendsNothing (exec i s) s := by
  cases hi : computes i with
  | true =>
    obtain ⟨op, operands, body, hBody, e⟩ := exec_computes hi s
    obtain ⟨r, -, hr⟩ := hBody (emit (.cmd op operands) s)
    exact ⟨_, e, acceptCommand_sending (hr ▸ rfl)⟩
  | false =>
    cases i with
    | connect => exact absurd rfl hConnect
    | disconnect => exact absurd rfl hDisconnect
    | transceive req => exact sendsNothing_transceive crc req
    | regRead idx => exact ⟨_, rfl, rfl⟩
    | regWrite idx value => exact sendsNothing_regWrite idx value s
    | pcbI nad seq chaining low inf =>
      exact sendsNothing_receive (firstIBlock_sending crc seq chaining inf) (furtherIBlock_sending crc seq chaining inf)
    | pcbS nad low inf => exact sendsNothing_receive (sblockReply_sending crc _ inf) rfl
    | pcbR nad bit5 seq mid error => exact sendsNothing_receive (rblockReply_sending crc error) rfl
    | _ => cases hi

/-- Settles O55: DISCONNECT clears `SEQ` when it is accepted, and the other instructions send nothing. -/
theorem noBlockIsSentWithCrcSelected : Obligations.NoBlockIsSentWithCrcSelected := by
  intro s t i crc hConnect ht
  by_cases hi : i = .disconnect
  · subst hi
    cases ht
    obtain ⟨busy, e⟩ | ⟨idle, e⟩ := acceptCommand_cases Opcode.disconnect.code .none _ s
    · rw [e]; simp [busy]
    · rw [e]; simp [idle]
  · obtain ⟨t', e, hSending⟩ := sendsNothing_exec crc hConnect hi
    cases e.symm.trans ht
    obtain ⟨hOutstanding, hRest⟩ := Prod.mk.inj hSending
    obtain ⟨hCount, hSeq⟩ := Prod.mk.inj hRest
    exact ⟨hCount, hOutstanding, by rw [if_neg (hi ·.1), hSeq]⟩

end Sys2Proof.Proofs
end

section
/-! PROOFS of family 40_apdu_codec, the commands' shared shape: a command that computes its result behind a buffer check
answers that result, or the error of the computation, in the step that accepts it. -/

namespace Sys2Proof.Proofs

open Sys2Proof.Machine Sys2Proof.Spec

/-- Completing with a value after the command's event is the completion the statements write out (R36, R44). -/
theorem succeed_emit_cmd (v : Option Value) (op : Byte) (operands : Operands) (s : State) :
    succeed v (emit (.cmd op operands) s) = okAfter op operands v s := rfl

/-- An accepted command whose operand fits completes with the value its computation answers. -/
theorem acceptCommand_finish_ok {s : State} {b : Bytes} {α : Type} {r : Except ErrCode α} {v : α}
    (idle : s.busy = false) (fits : b.length ≤ Config.bufCap) (h : r = .ok v) (op : Byte) (operands : Operands)
    (f : α → Value) :
    acceptCommand op operands (withBuffer b (finish (r.map f))) s = okAfter op operands (some (f v)) s := by
  rw [acceptCommand_of_idle idle, withBuffer_of_fits fits, h]; rfl

/-- An accepted command whose operand fits completes with the error its computation raises. -/
theorem acceptCommand_finish_error {s : State} {b : Bytes} {α : Type} {r : Except ErrCode α} {e : ErrCode}
    (idle : s.busy = false) (fits : b.length ≤ Config.bufCap) (h : r = .error e) (op : Byte) (operands : Operands)
    (f : α → Value) :
    acceptCommand op operands (withBuffer b (finish (r.map f))) s = errAfter op operands (errCode e) s := by
  rw [acceptCommand_of_idle idle, withBuffer_of_fits fits, h]; rfl

/-- A next state equal to the expected one answers it. -/
theorem answers_next {t u : State} (h : t = u) : Answers (.next t) u := ⟨t, rfl, congrArg visible h⟩

end Sys2Proof.Proofs
end

section
/-! PROOFS of family 40_apdu_codec, O22 to O25: the seven forms of an encoded APDU. The encoder writes the form R81
names, that form is one of the decoder's, and the decoder accepts nothing else. -/

namespace Sys2Proof.Proofs

open Sys2Proof.Machine Sys2Proof.Spec

/-! ### Length fields -/

/-- A byte holds a number modulo 256. -/
theorem lowByte_eq_ofNat_mod (n : Nat) : lowByte n = BitVec.ofNat 8 (n % 256) :=
  BitVec.eq_of_toNat_eq (by simp [lowByte])

/-- The two ways R53 and R82 write a number as two bytes agree. -/
theorem be16_eq_twoBytes (n : Nat) : be16 n = twoBytes n := by
  have high : lowByte (n / 256) = BitVec.ofNat 8 (n % 65536 / 256) :=
    BitVec.eq_of_toNat_eq (by simp only [lowByte, BitVec.toNat_ofNat]; omega)
  rw [be16, twoBytes, high, lowByte_eq_ofNat_mod]

/-- A byte is 0 exactly when it is 0 as a number. -/
theorem byte_eq_zero_iff (b : Byte) : b = 0 ↔ b.toNat = 0 := BitVec.toNat_eq

/-- A short Le byte says 0 for 256 (R82). -/
theorem neOfShort_toNat (le : Byte) : neOfShort le.toNat = if le = 0 then 256 else le.toNat := by
  simp only [neOfShort, byte_eq_zero_iff]

/-- An extended Le says 0 for 65536 (R82). -/
theorem neOfExtended_toNat (hi lo : Byte) :
    neOfExtended (hi.toNat * 256 + lo.toNat) = if hi = 0 ∧ lo = 0 then 65536 else hi.toNat * 256 + lo.toNat := by
  have zero : hi.toNat * 256 + lo.toNat = 0 ↔ hi = 0 ∧ lo = 0 := by
    simp only [byte_eq_zero_iff]; omega
  simp only [neOfExtended, zero]

/-- A short Le byte written for `ne` stands for `ne` (R82). -/
theorem shortLe_ofNat {ne : Nat} (h0 : ne ≠ 0) (h : ne ≤ 256) :
    (if BitVec.ofNat 8 (ne % 256) = 0 then 256 else (BitVec.ofNat 8 (ne % 256)).toNat) = ne := by
  rw [← neOfShort_toNat, neOfShort, BitVec.toNat_ofNat]
  split <;> omega

/-- Two bytes written for a number below 65536 stand for that number (R82). -/
theorem twoBytes_toNat {n : Nat} (h : n < 65536) :
    (BitVec.ofNat 8 (n % 65536 / 256)).toNat * 256 + (BitVec.ofNat 8 (n % 256)).toNat = n := by
  simp only [BitVec.toNat_ofNat]; omega

/-- An extended Le written for `ne` stands for `ne` (R82). -/
theorem extendedLe_ofNat {ne : Nat} (h0 : ne ≠ 0) (h : ne ≤ 65536) :
    (if BitVec.ofNat 8 (ne % 65536 / 256) = 0 ∧ BitVec.ofNat 8 (ne % 256) = 0 then 65536
      else (BitVec.ofNat 8 (ne % 65536 / 256)).toNat * 256 + (BitVec.ofNat 8 (ne % 256)).toNat) = ne := by
  rw [← neOfExtended_toNat, neOfExtended]
  simp only [BitVec.toNat_ofNat]
  split <;> omega

/-! ### Encoding -/

/-- The encoder's check is validity (R100, R103). -/
theorem apduValid_iff (a : CommandApdu) : apduValid a = true ↔ validApdu a := by
  rw [apduValid, Bool.and_eq_true, decide_eq_true_iff, decide_eq_true_iff]; rfl

/-- The check fails exactly for too much data or too large an `ne` (R103). -/
theorem apduValid_eq_false_iff (a : CommandApdu) :
    apduValid a = false ↔ 65535 < a.data.length ∨ 65536 < a.ne := by
  rw [Bool.eq_false_iff, ne_eq, apduValid_iff, validApdu]; omega

/-- The header and the body make the form R81 names. -/
theorem apduHeader_append_apduBody (a : CommandApdu) : apduHeader a ++ apduBody a = apduEncoding a := by
  have isExtended : apduExtended a = true ↔ ¬(a.data.length ≤ 255 ∧ a.ne ≤ 256) := by
    rw [apduExtended, Bool.or_eq_true, decide_eq_true_iff, decide_eq_true_iff]; omega
  have shortLc (h : a.data.length ≤ 255) : a.data.length % 256 = a.data.length := by omega
  simp only [apduHeader, apduBody, apduEncoding, isExtended, be16_eq_twoBytes, lowByte_eq_ofNat_mod]
  by_cases hData : a.data.length = 0 <;> by_cases hNe : a.ne = 0
  · simp [hData, hNe]
  · by_cases hShort : a.ne ≤ 256 <;> simp [hData, hNe, hShort]
  · by_cases hShort : a.data.length ≤ 255 <;> simp [hData, hNe, hShort, shortLc]
  · by_cases hShort : a.data.length ≤ 255 ∧ a.ne ≤ 256 <;> simp [hData, hNe, hShort, shortLc]

/-- A valid APDU is encoded in the form R81 names (R104). -/
theorem encodeApdu_of_valid {a : CommandApdu} (h : validApdu a) : encodeApdu a = .ok (apduEncoding a) := by
  rw [encodeApdu, if_pos ((apduValid_iff a).2 h), apduHeader_append_apduBody]

/-- An invalid APDU is refused (R103). -/
theorem encodeApdu_of_invalid {a : CommandApdu} (h : 65535 < a.data.length ∨ 65536 < a.ne) :
    encodeApdu a = .error .encApduField := by
  rw [encodeApdu, (apduValid_eq_false_iff a).2 h]; rfl

/-- Each form is as long as R105 says. -/
theorem apduEncoding_length (a : CommandApdu) : (apduEncoding a).length = apduEncodingLength a := by
  unfold apduEncoding apduEncodingLength
  dsimp only
  split_ifs <;> simp [twoBytes, *] <;> omega

/-- No encoding of a valid APDU is longer than the least buffer capacity (R8, R105). -/
theorem apduEncoding_length_le {a : CommandApdu} (h : validApdu a) : (apduEncoding a).length ≤ 65544 := by
  obtain ⟨hData, -⟩ := h
  rw [apduEncoding_length, apduEncodingLength]
  split_ifs <;> omega

/-- Settles O22: the buffer check, the APDU check, then the form of R81. -/
theorem apduEncodeResult : Obligations.ApduEncodeResult := by
  intro s a idle
  split_ifs with overlong invalid
  · exact overlongBytesOperandIsRefused s (.apduEncode a) _ _ _ rfl idle overlong
  · exact answers_next (acceptCommand_finish_error idle (Nat.not_lt.1 overlong) (encodeApdu_of_invalid invalid) _ _ _)
  · have valid : validApdu a := by unfold validApdu; omega
    exact answers_next (acceptCommand_finish_ok idle (Nat.not_lt.1 overlong) (encodeApdu_of_valid valid) _ _ _)

/-- Settles O23: the lengths of the forms. -/
theorem apduEncodingLengths : Obligations.ApduEncodingLengths :=
  fun a valid => ⟨_, encodeApdu_of_valid valid, apduEncoding_length a, apduEncoding_length_le valid⟩

/-! ### Decoding -/

section Forms

variable {cla ins p1 p2 lc hi lo : Byte} {rest : Bytes}

/-- A short form by the number of bytes after Lc (R110). -/
theorem decodeShort_cons (mk : Bytes → Nat → CommandApdu) :
    decodeShort mk (cla :: ins :: p1 :: p2 :: lc :: rest) =
      if rest.length = lc.toNat then .ok (mk rest 0)
      else if rest.length = lc.toNat + 1 then .ok (mk (rest.take lc.toNat) (neOfShort (natAt rest lc.toNat)))
      else .error .encApduDecode := by
  have noLe : rest.length + 5 = 5 + lc.toNat ↔ rest.length = lc.toNat := by omega
  have withLe : rest.length + 5 = 6 + lc.toNat ↔ rest.length = lc.toNat + 1 := by omega
  simp only [decodeShort, List.length_cons, natAt, byteAt, slice, Nat.add_assoc, Nat.reduceAdd, List.getD_cons_succ,
    List.getD_cons_zero, noLe, withLe]
  split_ifs with h h'
  · simp
  · simp [h']
  · rfl

/-- An extended form by the number of bytes after the length pair (R110). -/
theorem decodeExtended_cons (mk : Bytes → Nat → CommandApdu) {x : Nat} (hx : hi.toNat * 256 + lo.toNat = x) :
    decodeExtended mk (cla :: ins :: p1 :: p2 :: 0 :: hi :: lo :: rest) =
      if rest = [] then .ok (mk [] (neOfExtended x))
      else if x = 0 then .error .encApduDecode
      else if rest.length = x then .ok (mk rest 0)
      else if rest.length = x + 2 then .ok (mk (rest.take x) (neOfExtended (be16At rest x)))
      else .error .encApduDecode := by
  have tooShort : ¬rest.length + 7 < 7 := by omega
  have noData : rest.length + 7 = 7 ↔ rest = [] := by rw [← List.length_eq_zero_iff]; omega
  have noLe : rest.length + 7 = 7 + x ↔ rest.length = x := by omega
  have withLe : rest.length + 7 = 9 + x ↔ rest.length = x + 2 := by omega
  simp only [decodeExtended, List.length_cons, natAt, byteAt, slice, be16At, Nat.add_assoc, Nat.reduceAdd,
    List.getD_cons_succ, List.getD_cons_zero, hx, tooShort, noData, noLe, withLe, if_false]
  split_ifs with _ _ _ h
  · rfl
  · rfl
  · simp
  · simp [h]
  · rfl

/-- A buffer of more than five bytes whose byte 4 is not 0 has a short form. -/
theorem decodeApdu_short (hLc : lc ≠ 0) (hRest : rest ≠ []) :
    decodeApdu (cla :: ins :: p1 :: p2 :: lc :: rest) =
      decodeShort (CommandApdu.mk cla ins p1 p2) (cla :: ins :: p1 :: p2 :: lc :: rest) := by
  have := (byte_eq_zero_iff lc).not.1 hLc
  simp [decodeApdu, byteAt, natAt, this, hRest]

/-- A buffer of more than five bytes whose byte 4 is 0 has an extended form. -/
theorem decodeApdu_extended (hRest : rest ≠ []) :
    decodeApdu (cla :: ins :: p1 :: p2 :: 0 :: rest) =
      decodeExtended (CommandApdu.mk cla ins p1 p2) (cla :: ins :: p1 :: p2 :: 0 :: rest) := by
  simp [decodeApdu, byteAt, natAt, hRest]

end Forms

/-- A buffer in one of the seven forms is decoded as the APDU it stands for (R110). -/
theorem decodeApdu_of_apduBuffer {b : Bytes} {a : CommandApdu} (h : ApduBuffer b a) : decodeApdu b = .ok a := by
  cases h with
  | case1 cla ins p1 p2 => rfl
  | case2S cla ins p1 p2 le => rw [← neOfShort_toNat]; rfl
  | case2E cla ins p1 p2 hi lo => rw [← neOfExtended_toNat]; rfl
  | case3S cla ins p1 p2 lc data h h0 =>
    have hData : data ≠ [] := by
      rintro rfl
      exact h0 ((byte_eq_zero_iff lc).2 h.symm)
    refine (decodeApdu_short h0 hData).trans ?_
    rw [decodeShort_cons, if_pos h]
  | case4S cla ins p1 p2 lc le data h h0 =>
    rw [← neOfShort_toNat]
    refine (decodeApdu_short (rest := data ++ [le]) h0 (by simp)).trans ?_
    rw [decodeShort_cons]
    simp [← h, natAt, byteAt]
  | case3E cla ins p1 p2 hi lo data h h0 =>
    refine (decodeApdu_extended (rest := hi :: lo :: data) (List.cons_ne_nil _ _)).trans ?_
    rw [decodeExtended_cons _ h.symm]
    simp [h0]
  | case4E cla ins p1 p2 hi lo eh el data h h0 =>
    rw [← neOfExtended_toNat]
    refine (decodeApdu_extended (rest := hi :: lo :: (data ++ [eh, el])) (List.cons_ne_nil _ _)).trans ?_
    rw [decodeExtended_cons _ h.symm]
    simp [h0, be16At, natAt, byteAt]

/-- A sequence of one more than `n` bytes is `n` bytes and a last one. -/
theorem exists_append_byte {b : Bytes} {n : Nat} (h : b.length = n + 1) :
    ∃ init last, b = init ++ [last] ∧ init.length = n :=
  ⟨b.dropLast, b.getLast (List.ne_nil_of_length_eq_add_one h), (List.dropLast_append_getLast _).symm, by simp [h]⟩

/-- A sequence of two more than `n` bytes is `n` bytes and two last ones. -/
theorem exists_append_pair {b : Bytes} {n : Nat} (h : b.length = n + 2) :
    ∃ init x y, b = init ++ [x, y] ∧ init.length = n := by
  obtain ⟨front, y, rfl, hFront⟩ := exists_append_byte h
  obtain ⟨init, x, rfl, hInit⟩ := exists_append_byte hFront
  exact ⟨init, x, y, by simp, hInit⟩

/-- The decoder accepts only buffers in one of the seven forms (R110). -/
theorem exists_apduBuffer_of_decodeApdu {b : Bytes} {a : CommandApdu} (h : decodeApdu b = .ok a) :
    ∃ a', ApduBuffer b a' := by
  match b with
  | [] | [_] | [_, _] | [_, _, _] => cases h
  | [cla, ins, p1, p2] => exact ⟨_, .case1 cla ins p1 p2⟩
  | [cla, ins, p1, p2, le] => exact ⟨_, .case2S cla ins p1 p2 le⟩
  | cla :: ins :: p1 :: p2 :: lc :: x :: rest =>
    by_cases hLc : lc = 0
    · subst hLc
      rw [decodeApdu_extended (List.cons_ne_nil _ _)] at h
      cases rest with
      | nil => cases h
      | cons lo rest =>
        rw [decodeExtended_cons _ rfl] at h
        split_ifs at h with noData _ noLe withLe
        · subst noData; exact ⟨_, .case2E cla ins p1 p2 x lo⟩
        · exact ⟨_, .case3E cla ins p1 p2 x lo rest noLe noData⟩
        · obtain ⟨data, eh, el, rfl, hData⟩ := exists_append_pair withLe
          exact ⟨_, .case4E cla ins p1 p2 x lo eh el data hData (List.ne_nil_of_length_pos (by omega))⟩
    · rw [decodeApdu_short hLc (List.cons_ne_nil _ _), decodeShort_cons] at h
      split_ifs at h with noLe withLe
      · exact ⟨_, .case3S cla ins p1 p2 lc (x :: rest) noLe hLc⟩
      · obtain ⟨data, le, hRest, hData⟩ := exists_append_byte withLe
        rw [hRest]
        exact ⟨_, .case4S cla ins p1 p2 lc le data hData hLc⟩

/-- The short forms have one error (R110). -/
theorem decodeShort_ok_or_error (mk : Bytes → Nat → CommandApdu) (b : Bytes) :
    (∃ a, decodeShort mk b = .ok a) ∨ decodeShort mk b = .error .encApduDecode := by
  unfold decodeShort
  dsimp only
  split_ifs
  exacts [.inl ⟨_, rfl⟩, .inl ⟨_, rfl⟩, .inr rfl]

/-- The extended forms have the same error (R110). -/
theorem decodeExtended_ok_or_error (mk : Bytes → Nat → CommandApdu) (b : Bytes) :
    (∃ a, decodeExtended mk b = .ok a) ∨ decodeExtended mk b = .error .encApduDecode := by
  unfold decodeExtended
  dsimp only
  split_ifs
  exacts [.inr rfl, .inl ⟨_, rfl⟩, .inr rfl, .inl ⟨_, rfl⟩, .inl ⟨_, rfl⟩, .inr rfl]

/-- The decoder has one error (R110). -/
theorem decodeApdu_ok_or_error (b : Bytes) :
    (∃ a, decodeApdu b = .ok a) ∨ decodeApdu b = .error .encApduDecode := by
  unfold decodeApdu
  dsimp only
  split_ifs
  exacts [.inr rfl, .inl ⟨_, rfl⟩, .inl ⟨_, rfl⟩, decodeShort_ok_or_error _ b, decodeExtended_ok_or_error _ b]

/-- A buffer in none of the seven forms is refused (R110). -/
theorem decodeApdu_of_not_apduBuffer {b : Bytes} (h : ¬∃ a, ApduBuffer b a) :
    decodeApdu b = .error .encApduDecode :=
  (decodeApdu_ok_or_error b).resolve_left fun ⟨_, ok⟩ => h (exists_apduBuffer_of_decodeApdu ok)

/-- Settles O24: the decoder accepts exactly the seven forms. -/
theorem apduDecodeResult : Obligations.ApduDecodeResult := by
  intro s b idle
  refine ⟨fun overlong => ?_, fun fits a hForm => ?_, fun fits hForm => ?_⟩
  · exact overlongBytesOperandIsRefused s (.apduDecode b) _ _ _ rfl idle overlong
  · exact answers_next (acceptCommand_finish_ok idle fits (decodeApdu_of_apduBuffer hForm) _ _ _)
  · exact answers_next (acceptCommand_finish_error idle fits (decodeApdu_of_not_apduBuffer hForm) _ _ _)

/-! ### Decoding an encoding -/

/-- The encoding of a valid APDU is in one of the seven forms and stands for that APDU (R111). -/
theorem apduBuffer_apduEncoding {a : CommandApdu} (h : validApdu a) : ApduBuffer (apduEncoding a) a := by
  obtain ⟨cla, ins, p1, p2, data, ne⟩ := a
  obtain ⟨hData, hNe⟩ : data.length ≤ 65535 ∧ ne ≤ 65536 := h
  have nonempty (h : data.length ≠ 0) : data ≠ [] := fun e => h (e ▸ rfl)
  have shortLc (h : data.length ≤ 255) : data.length = (BitVec.ofNat 8 data.length).toNat := by
    rw [BitVec.toNat_ofNat]; omega
  have shortLc_ne_zero (h0 : data.length ≠ 0) (h : data.length ≤ 255) : BitVec.ofNat 8 data.length ≠ 0 := by
    rwa [ne_eq, byte_eq_zero_iff, ← shortLc h]
  have extendedLc := (twoBytes_toNat (Nat.lt_succ_of_le hData)).symm
  unfold apduEncoding
  dsimp only
  split_ifs with case1 case2S noData case3S noNe case4S
  · obtain ⟨noData, rfl⟩ := case1
    cases List.eq_nil_of_length_eq_zero noData
    exact .case1 cla ins p1 p2
  · obtain ⟨noData, shortNe⟩ := case2S
    cases List.eq_nil_of_length_eq_zero noData
    have form := ApduBuffer.case2S cla ins p1 p2 (BitVec.ofNat 8 (ne % 256))
    rwa [shortLe_ofNat (by omega) shortNe] at form
  · cases List.eq_nil_of_length_eq_zero noData
    have form := ApduBuffer.case2E cla ins p1 p2 (BitVec.ofNat 8 (ne % 65536 / 256)) (BitVec.ofNat 8 (ne % 256))
    rwa [extendedLe_ofNat (by omega) hNe] at form
  · obtain ⟨shortData, rfl⟩ := case3S
    exact .case3S cla ins p1 p2 _ data (shortLc shortData) (shortLc_ne_zero noData shortData)
  · subst noNe
    exact .case3E cla ins p1 p2 _ _ data extendedLc (nonempty noData)
  · obtain ⟨shortData, shortNe⟩ := case4S
    have form := ApduBuffer.case4S cla ins p1 p2 _ (BitVec.ofNat 8 (ne % 256)) data (shortLc shortData)
      (shortLc_ne_zero noData shortData)
    rwa [shortLe_ofNat noNe shortNe] at form
  · have form := ApduBuffer.case4E cla ins p1 p2 _ _ (BitVec.ofNat 8 (ne % 65536 / 256)) (BitVec.ofNat 8 (ne % 256))
      data extendedLc (nonempty noData)
    rwa [extendedLe_ofNat noNe hNe] at form

/-- Settles O25: the encoding is a form of its APDU, and fits the buffer. -/
theorem apduRoundTrip : Obligations.ApduRoundTrip := by
  intro s a idle valid
  have dataFits : a.data.length ≤ Config.bufCap := le_bufCap (le_trans valid.1 (by decide))
  have encodes := acceptCommand_finish_ok idle dataFits (encodeApdu_of_valid valid) 0x10 (apduOps a) .bytes
  have decodes := acceptCommand_finish_ok (s := okAfter 0x10 (apduOps a) (some (.bytes (apduEncoding a))) s) rfl
    (le_bufCap (apduEncoding_length_le valid)) (decodeApdu_of_apduBuffer (apduBuffer_apduEncoding valid)) 0x11
    (.bytes (apduEncoding a)) .apdu
  exact ⟨apduEncoding a, _, _, congrArg Host.Outcome.next encodes, rfl, rfl, congrArg Host.Outcome.next decodes, rfl⟩

end Sys2Proof.Proofs
end

section
/-! PROOFS of family 40_apdu_codec, O26 and O27: response APDUs. -/

namespace Sys2Proof.Proofs

open Sys2Proof.Machine Sys2Proof.Spec

/-- Settles O26: the buffer check of the body, then that of the result, which is two bytes longer. -/
theorem rapduEncodeResult : Obligations.RapduEncodeResult := by
  intro s r idle
  have hLength : (encodeRapdu r).length = r.body.length + 2 := by simp [encodeRapdu]
  by_cases overlongBody : Config.bufCap < r.body.length
  · rw [if_pos (by omega)]
    exact overlongBytesOperandIsRefused s (.rapduEncode r) _ _ _ rfl idle overlongBody
  · apply answers_next
    rw [acceptCommand_of_idle idle, withBuffer_of_fits (Nat.not_lt.1 overlongBody)]
    split_ifs with overlong
    · exact withBuffer_of_overlong (hLength ▸ overlong) ..
    · exact withBuffer_of_fits (hLength ▸ Nat.not_lt.1 overlong) ..

/-- The decoder splits off the last two bytes (R116). -/
theorem decodeRapdu_append (body : Bytes) (sw1 sw2 : Byte) :
    decodeRapdu (body ++ [sw1, sw2]) = .ok ⟨body, sw1, sw2⟩ := by
  simp [decodeRapdu, slice, byteAt]

/-- Fewer than two bytes are no response APDU (R116). -/
theorem decodeRapdu_of_short {b : Bytes} (h : b.length < 2) : decodeRapdu b = .error .encApduDecode := if_pos h

/-- Settles O27: a buffer of fewer than two bytes fits, so each clause is one branch. -/
theorem rapduDecodeResult : Obligations.RapduDecodeResult := by
  refine ⟨fun s body sw1 sw2 idle fits => ?_, fun s b idle short => ?_, fun s b idle overlong => ?_⟩
  · exact answers_next (acceptCommand_finish_ok idle (by simpa using fits) (decodeRapdu_append body sw1 sw2) _ _ _)
  · exact answers_next
      (acceptCommand_finish_error idle (le_bufCap (by omega)) (decodeRapdu_of_short short) _ _ _)
  · exact overlongBytesOperandIsRefused s (.rapduDecode b) _ _ _ rfl idle overlong

end Sys2Proof.Proofs
end

section
/-! PROOFS of family 40_apdu_codec, O28 and O29: command chaining. All segments but the last are full, and the last
takes what is left. -/

namespace Sys2Proof.Proofs

open Sys2Proof.Machine Sys2Proof.Spec

/-! ### The number of segments -/

/-- The two ways R10 can be read to round a quotient up agree. -/
theorem ceilDiv_eq_ceilOf {s : Nat} (h : 0 < s) (n : Nat) : ceilDiv n s = ceilOf n s := by
  have below : s - 1 < s := by omega
  rw [ceilDiv, ceilOf, Nat.add_sub_assoc h, Nat.add_div h, Nat.div_eq_of_lt below, Nat.mod_eq_of_lt below]
  split_ifs <;> omega

/-- Data longer than one segment make `m` full segments, and a last one of at least one byte. -/
theorem exists_fullSegments {n s : Nat} (h : 0 < s) (hn : s < n) :
    ∃ m, ceilDiv n s = m + 1 ∧ m * s < n ∧ n ≤ m * s + s := by
  refine ⟨(n - 1) / s, ?_, ?_, ?_⟩
  · rw [ceilDiv, show n + s - 1 = n - 1 + s by omega, Nat.add_div_right _ h]
  · have := Nat.div_mul_le_self (n - 1) s
    omega
  · have := Nat.lt_div_mul_add (a := n - 1) h
    omega

/-! ### The list of segments -/

theorem slice_segment (b : Bytes) (s i : Nat) : slice b (i * s) ((i + 1) * s) = (b.drop (i * s)).take s := by
  rw [slice, Nat.add_mul, Nat.one_mul, Nat.add_sub_cancel_left]

theorem slice_to_end (b : Bytes) (i : Nat) : slice b i b.length = b.drop i :=
  List.take_of_length_le (by simp)

/-- Data that fit one segment are sent as they are (R122). -/
theorem chainApdus_of_le {a : CommandApdu} {s : Nat} (h : a.data.length ≤ s) : chainApdus a s = [a] := if_pos h

/-- Longer data are sent as the full segments and the last one (R122). -/
theorem chainApdus_of_lt {a : CommandApdu} {s m : Nat} (h : s < a.data.length)
    (count : ceilDiv a.data.length s = m + 1) :
    chainApdus a s = (List.range m).map (chainSegment a s) ++ [chainLast a s (m + 1)] := by
  rw [chainApdus, if_neg (Nat.not_le.2 h)]
  simp only [count, Nat.add_sub_cancel]

/-- Segment `i` before the last is the full segment of the model. -/
theorem chainPart_of_lt {a : CommandApdu} {s m i : Nat} (h : i < m) : chainPart a s (m + 1) i = chainSegment a s i := by
  have : i + 1 < m + 1 := by omega
  simp only [chainPart, chainSegment, slice_segment, if_pos this]
  rfl

/-- The last part is the last segment of the model, as no more than a segment is left. -/
theorem chainPart_last {a : CommandApdu} {s m : Nat} (h : a.data.length ≤ m * s + s) :
    chainPart a s (m + 1) m = chainLast a s (m + 1) := by
  have rest : ((a.data.drop (m * s)).take s) = a.data.drop (m * s) :=
    List.take_of_length_le (by rw [List.length_drop]; omega)
  simp only [chainPart, chainLast, slice_to_end, rest, Nat.add_sub_cancel, Nat.lt_irrefl, if_false]

/-- The list of segments is the one R122 describes part by part. -/
theorem chainApdus_eq_chainOf {s : Nat} (h : 0 < s) (a : CommandApdu) : chainApdus a s = chainOf a s := by
  by_cases short : a.data.length ≤ s
  · rw [chainApdus_of_le short, chainOf, if_pos short]
  · obtain ⟨m, count, -, bound⟩ := exists_fullSegments h (Nat.not_le.1 short)
    rw [chainApdus_of_lt (Nat.not_le.1 short) count, chainOf, if_neg short, ← ceilDiv_eq_ceilOf h, count,
      List.range_succ, List.map_append, List.map_singleton, chainPart_last bound]
    congr 1
    exact List.map_congr_left fun i hi => (chainPart_of_lt (List.mem_range.1 hi)).symm

/-- The full segments put together are the data up to the last segment. -/
theorem flatten_chainSegments (a : CommandApdu) (s m : Nat) :
    (((List.range m).map (chainSegment a s)).map CommandApdu.data).flatten = a.data.take (m * s) := by
  induction m with
  | zero => simp
  | succ m ih =>
    rw [List.range_succ, List.map_append, List.map_append, List.flatten_append, ih, Nat.add_mul, Nat.one_mul,
      List.take_add]
    simp [chainSegment, slice_segment]

/-- A full segment has exactly the segment length (R122). -/
theorem chainSegment_data_length {a : CommandApdu} {s m i : Nat} (hi : i < m) (h : m * s < a.data.length) :
    (chainSegment a s i).data.length = s := by
  have : (i + 1) * s ≤ m * s := Nat.mul_le_mul_right s hi
  rw [Nat.add_mul, Nat.one_mul] at this
  simp only [chainSegment, slice_segment, List.length_take, List.length_drop]
  omega

/-- The last segment holds the data after the full segments (R122). -/
theorem chainLast_data (a : CommandApdu) (s m : Nat) : (chainLast a s (m + 1)).data = a.data.drop (m * s) :=
  slice_to_end _ _

/-! ### The command -/

/-- An invalid APDU is refused before the segment length is looked at (R103, R122). -/
theorem chainApdu_of_invalid {a : CommandApdu} (h : 65535 < a.data.length ∨ 65536 < a.ne) (seg : Nat) :
    chainApdu a seg = .error .encApduField := if_pos ((apduValid_eq_false_iff a).2 h)

/-- For a valid APDU a segment length of 0 or above 65535 is refused (R122). -/
theorem chainApdu_of_badSegment {a : CommandApdu} {seg : Nat} (h : ¬(65535 < a.data.length ∨ 65536 < a.ne))
    (hSeg : seg = 0 ∨ 65535 < seg) : chainApdu a seg = .error .encBadOperand := by
  rw [chainApdu, if_neg (mt (apduValid_eq_false_iff a).1 h)]; exact if_pos hSeg

/-- For a valid APDU and a legal segment length the list of R122 is answered. -/
theorem chainApdu_of_legal {a : CommandApdu} {seg : Nat} (h : ¬(65535 < a.data.length ∨ 65536 < a.ne))
    (hSeg : ¬(seg = 0 ∨ 65535 < seg)) : chainApdu a seg = .ok (chainOf a seg) := by
  rw [chainApdu, if_neg (mt (apduValid_eq_false_iff a).1 h), chainApdus_eq_chainOf (by omega)]; exact if_neg hSeg

/-- Settles O28: the buffer check, the APDU check, the segment length check, then the list of R122. -/
theorem apduChainResult : Obligations.ApduChainResult := by
  intro s a seg idle
  split_ifs with overlong invalid badSegment
  · exact overlongBytesOperandIsRefused s (.apduChain a seg) _ _ _ rfl idle overlong
  · exact answers_next
      (acceptCommand_finish_error idle (Nat.not_lt.1 overlong) (chainApdu_of_invalid invalid seg) _ _ _)
  · exact answers_next
      (acceptCommand_finish_error idle (Nat.not_lt.1 overlong) (chainApdu_of_badSegment invalid badSegment) _ _ _)
  · exact answers_next
      (acceptCommand_finish_ok idle (Nat.not_lt.1 overlong) (chainApdu_of_legal invalid badSegment) _ _ _)

/-- Settles O29: one APDU for short data; else the full segments and the last one, which cut the data in order. -/
theorem chainSegmentsRejoin : Obligations.ChainSegmentsRejoin := by
  intro a seg positive
  by_cases short : a.data.length ≤ seg
  · exact ⟨[], a, chainApdus_of_le short, rfl, nofun, short, (absurd rfl ·), rfl, rfl, rfl, rfl, rfl⟩
  · obtain ⟨m, count, more, bound⟩ := exists_fullSegments positive (Nat.not_le.1 short)
    refine ⟨_, _, chainApdus_of_lt (Nat.not_le.1 short) count, ?_, ?_, ?_, fun _ => ?_, rfl, rfl, rfl, rfl, rfl⟩
    · rw [flatten_chainSegments, chainLast_data, List.take_append_drop]
    · intro x hx
      obtain ⟨i, hi, rfl⟩ := List.mem_map.1 hx
      exact ⟨chainSegment_data_length (List.mem_range.1 hi) more, rfl, rfl, rfl, rfl, rfl⟩
    · rw [chainLast_data, List.length_drop]; omega
    · rw [chainLast_data]; exact List.ne_nil_of_length_pos (by rw [List.length_drop]; omega)

end Sys2Proof.Proofs
end

section
/-! PROOFS of family 41_checksum, O19: one byte more is one exclusive OR more, and a whole sequence is one fold, so that a
sequence and its own LRC cancel. -/

namespace Sys2Proof.Proofs

open Sys2Proof.Machine Sys2Proof.Spec

/-- One step of the running exclusive OR (R140). -/
theorem lrc_succ (b : Bytes) (e : Nat) : lrc b (e + 1) = lrc b e ^^^ byteAt b e := by
  simp only [lrc_eq_xorUpTo, xorUpTo, byteAt]

/-- The LRC of a whole sequence folds all its bytes (R140). -/
theorem lrc_length (b : Bytes) : lrc b b.length = b.foldl (· ^^^ ·) 0 := by
  rw [lrc, List.take_length]

theorem lrc_append (b c : Bytes) : lrc (b ++ c) (b ++ c).length = lrc b b.length ^^^ lrc c c.length := by
  simp only [lrc_length, List.foldl_append]
  conv_lhs => rw [← BitVec.xor_zero (x := b.foldl (· ^^^ ·) 0)]
  exact List.foldl_assoc

theorem lrc_singleton (x : Byte) : lrc [x] 1 = x := BitVec.zero_xor

/-- A sequence followed by its own LRC cancels (R143). -/
theorem lrc_append_lrc (f : Bytes) : lrc (f ++ [lrc f f.length]) (f.length + 1) = 0x00 := by
  simpa [lrc_singleton] using lrc_append f [lrc f f.length]

/-- The last byte of an accepted sequence is the LRC of those before it (R143, R160). -/
theorem lrc_of_parseBlock {t : EdcType} {b : Bytes} {blk : Block} (h : parseBlock t b = .ok blk) :
    lrc b b.length = 0x00 := by
  obtain ⟨-, hLength, -, hEdc, -⟩ := parseBlock_ok h
  rw [hLength, show 4 + natAt b 2 = 3 + natAt b 2 + 1 by omega, lrc_succ, hEdc]
  exact BitVec.xor_self

/-- Settles O19: the step of the exclusive OR, the concatenation, and a sequence that ends with its own LRC. -/
theorem lrcLaws : Obligations.LrcLaws := by
  refine ⟨fun b e inside => ?_, lrc_append, lrc_append_lrc, fun _ _ _ => lrc_of_parseBlock⟩
  rw [lrc_succ, byteAt, List.getD_eq_getElem _ _ inside]

end Sys2Proof.Proofs
end

section
/-! PROOFS of family 41_checksum, O20 and O21: the two checksum commands, by the value each answers. -/

namespace Sys2Proof.Proofs

open Sys2Proof.Machine Sys2Proof.Spec

/-- An `end` beyond the sequence is refused whatever checksum is selected (R142, R255). -/
theorem edcValue_of_beyond {b : Bytes} {stop : Nat} (h : b.length < stop) (t : EdcType) :
    edcValue t b stop = .error .encBadOperand := if_pos h

/-- With CRC selected there is no checksum to answer (R141). -/
theorem edcValue_crc {b : Bytes} {stop : Nat} (h : ¬b.length < stop) :
    edcValue .crc b stop = .error .capCrcUnsupported := if_neg h

/-- With the LRC selected the exclusive OR of the bytes before `end` is answered (R140, R142). -/
theorem edcValue_lrc {b : Bytes} {stop : Nat} (h : ¬b.length < stop) :
    edcValue .lrc b stop = .ok (.byte (xorUpTo b stop)) := by
  rw [← lrc_eq_xorUpTo]; exact if_neg h

/-- An accepted EDC_COMPUTE whose sequence fits completes with what `edcValue` answers (R142). -/
theorem exec_edcCompute_of_fits {s : State} {b : Bytes} (idle : s.busy = false) (fits : b.length ≤ Config.bufCap)
    (stop : Nat) : exec (.edcCompute b stop) s =
      .next (finish (edcValue s.edcType b stop) (emit (.cmd 0x01 (.bytesEnd b stop)) s)) := by
  refine congrArg Host.Outcome.next ?_
  rw [acceptCommand_of_idle idle, withBuffer_of_fits fits]; rfl

/-- Settles O20: the buffer check, the range of `end`, the capability, then the exclusive OR. -/
theorem edcComputeResult : Obligations.EdcComputeResult := by
  intro s b stop idle
  by_cases overlong : Config.bufCap < b.length
  · rw [if_pos (.inl overlong)]
    exact overlongBytesOperandIsRefused s (.edcCompute b stop) _ _ _ rfl idle overlong
  rw [exec_edcCompute_of_fits idle (Nat.not_lt.1 overlong)]
  apply answers_next
  split_ifs with refused crc
  · rw [edcValue_of_beyond (refused.resolve_left overlong)]; rfl
  · rw [crc, edcValue_crc (mt .inr refused)]; rfl
  · rw [(edcType_cases s.edcType).resolve_right crc, edcValue_lrc (mt .inr refused)]; rfl

/-- The length R144 answers, by the selection. -/
theorem edcLength_eq (t : EdcType) : edcLength t = if t = .lrc then 1 else 2 := by
  cases t <;> rfl

/-- Settles O21: the command has no operand to check, so it completes with `edcLength`. -/
theorem edcLengthResult : Obligations.EdcLengthResult := by
  intro s idle
  apply answers_next
  rw [acceptCommand_of_idle idle, succeed_emit_cmd, emit_edcType, edcLength_eq]; rfl

end Sys2Proof.Proofs
end

section
/-! PROOFS of family 42_block, O3 and O4: what `ParseBlock` accepts is the layout of R72 with its LRC, the fields of the
record are its bytes, and what the builders lay out is accepted. -/

namespace Sys2Proof.Proofs

open Sys2Proof.Machine Sys2Proof.Spec

/-! ### The bytes at their places -/

theorem slice_add (b : Bytes) (i n : Nat) : slice b i (i + n) = (b.drop i).take n := by
  rw [slice, Nat.add_sub_cancel_left]

/-- The INF field has the length that LEN gives (R72). -/
theorem inf_length {b : Bytes} {l : Nat} (h : b.length = 4 + l) : (slice b 3 (3 + l)).length = l := by
  rw [slice_add, List.length_take, List.length_drop]; omega

/-- The EDC is the last byte (R72). -/
theorem drop_edc {b : Bytes} {l : Nat} (h : b.length = 4 + l) : b.drop (3 + l) = [byteAt b (3 + l)] := by
  rw [List.drop_eq_getElem_cons (by omega), List.drop_of_length_le (by omega), byteAt, List.getD_eq_getElem]

/-- NAD, PCB, LEN and INF laid out again are all bytes before the EDC. -/
theorem frameBody_eq_take {b : Bytes} (h : b.length = 4 + natAt b 2) :
    frameBody (byteAt b 0) (byteAt b 1) (slice b 3 (3 + natAt b 2)) = b.take (3 + natAt b 2) := by
  rw [frameBody, inf_length h, slice_add, List.take_add]
  match b with
  | [] | [_] | [_, _] => simp only [List.length_cons, List.length_nil] at h; omega
  | nad :: pcb :: len :: rest => simp [lowByte, natAt, byteAt]

/-- With the EDC they are the whole sequence (R169). -/
theorem frameBody_append_edc {b : Bytes} (h : b.length = 4 + natAt b 2) :
    frameBody (byteAt b 0) (byteAt b 1) (slice b 3 (3 + natAt b 2)) ++ [byteAt b (3 + natAt b 2)] = b := by
  rw [frameBody_eq_take h, ← drop_edc h, List.take_append_drop]

/-- A sequence whose length and LRC check out is the block its fields are built into (R72, R160). -/
theorem frameBytes_of_checks {b : Bytes} (h : b.length = 4 + natAt b 2)
    (hEdc : byteAt b (3 + natAt b 2) = lrc b (3 + natAt b 2)) :
    frameBytes (byteAt b 0) (byteAt b 1) (slice b 3 (3 + natAt b 2)) = b := by
  have hLrc : lrc (b.take (3 + natAt b 2)) (b.take (3 + natAt b 2)).length = byteAt b (3 + natAt b 2) := by
    rw [lrc_length, hEdc, lrc]
  rw [frameBytes, frameBody_eq_take h, hLrc, ← drop_edc h, List.take_append_drop]

/-! ### The kinds -/

/-- The record of a sequence that passes kind dispatch, by its kind (R76, R164, R166). -/
theorem classify_ok {b : Bytes} {l : Nat} {blk : Block} (h : classify b l = .ok blk) :
    (kindOf (byteAt b 1) = .i ∧ blk = .i (byteAt b 0) (byteAt b 1) (slice b 3 (3 + l)) [byteAt b (3 + l)]
      (pcbBit (byteAt b 1) 6) (pcbBit (byteAt b 1) 5)) ∨
    (kindOf (byteAt b 1) = .s ∧ blk = .s (byteAt b 0) (byteAt b 1) (slice b 3 (3 + l)) [byteAt b (3 + l)]) ∨
    (kindOf (byteAt b 1) = .r ∧ l = 0 ∧ ∃ e, rErrorOfBits ((byteAt b 1).extractLsb' 0 2) = some e ∧
      blk = .r (byteAt b 0) (byteAt b 1) [] [byteAt b (3 + l)] (pcbBit (byteAt b 1) 4) e) := by
  unfold classify at h
  dsimp only at h
  split at h
  next hk => cases h; exact .inl ⟨hk, rfl⟩
  next hk => cases h; exact .inr (.inl ⟨hk, rfl⟩)
  next hk =>
    split at h
    next => cases h
    next empty =>
      split at h
      next => cases h
      next e hError => cases h; exact .inr (.inr ⟨hk, not_not.1 empty, e, hError, rfl⟩)

/-- The PCB of an I-block is made of its fields (R73). -/
theorem pcbOfI_of_kind : ∀ {p : Byte}, kindOf p = .i →
    pcbOfI (pcbBit p 6) (pcbBit p 5) (p.extractLsb' 0 5) = p := by
  decide

/-- The same of an S-block (R75). -/
theorem pcbOfS_of_kind : ∀ {p : Byte}, kindOf p = .s → pcbOfS (p.extractLsb' 0 6) = p := by
  decide

/-- The same of an R-block (R74, R77). -/
theorem pcbOfR_of_kind {p : Byte} {e : RError} (hk : kindOf p = .r)
    (he : rErrorOfBits (p.extractLsb' 0 2) = some e) :
    pcbOfR (p.extractLsb' 5 1) (pcbBit p 4) (p.extractLsb' 2 2) e = p := by
  revert p; cases e <;> decide

/-- Settles O3, by the kind of the block: its fields are the bytes in order, and the instruction's make its PCB. -/
theorem reserialisedBlockIsTheReceivedBytes : Obligations.ReserialisedBlockIsTheReceivedBytes := by
  intro t b blk h
  obtain ⟨-, hLength, hMax, hEdc, hClassify⟩ := parseBlock_ok h
  have hLayout := frameBody_append_edc hLength
  have hFrame := frameBytes_of_checks hLength hEdc
  have hFits : infFits (slice b 3 (3 + natAt b 2)) = true := (infFits_iff _).2 (by rwa [inf_length hLength])
  obtain ⟨hk, rfl⟩ | ⟨hk, rfl⟩ | ⟨hk, hEmpty, e, hError, rfl⟩ := classify_ok hClassify
  · exact ⟨hLayout, congrArg Words.frame (by rw [pcbOfI_of_kind hk, hFrame]), hFits⟩
  · exact ⟨hLayout, congrArg Words.frame (by rw [pcbOfS_of_kind hk, hFrame]), hFits⟩
  · have hInf : slice b 3 (3 + natAt b 2) = [] := List.eq_nil_of_length_eq_zero ((inf_length hLength).trans hEmpty)
    rw [hInf] at hLayout hFrame
    exact ⟨hLayout, congrArg Words.frame (by rw [pcbOfR_of_kind hk hError, hFrame]), rfl⟩

/-! ### Built blocks -/

/-- With the LRC selected `BuildR` lays out an R-block with no INF (R155, R156). -/
theorem buildR_lrc_eq_frameBytes (n : Bit) : buildR .lrc n = .ok (frameBytes 0x00 (pcbOfR 0 (n + 1) 0 .noError) []) :=
  withEdc_lrc _ _ _

/-- Settles O4: both builders lay out a block that the parser reads back. -/
theorem parseOfBuiltBlockGivesItsFields : Obligations.ParseOfBuiltBlockGivesItsFields := by
  refine ⟨fun seq chaining inf hInf => ?_, fun n => ?_⟩
  · obtain ⟨edc, hParse⟩ := parseBlock_pcbI 0x00 seq chaining 0 hInf
    exact ⟨_, _, edc, by rw [buildI_cases, if_neg (Nat.not_lt.2 hInf)], hParse⟩
  · obtain ⟨edc, hParse⟩ := parseBlock_pcbR 0x00 0 (n + 1) 0 .noError
    exact ⟨_, _, edc, buildR_lrc_eq_frameBytes n, hParse⟩

end Sys2Proof.Proofs
end

section
/-! PROOFS of family 42_block, `ParseBlock` in the spec's own arithmetic: the checks of R160 one by one, and the record by
the number of the PCB. -/

namespace Sys2Proof.Proofs

open Sys2Proof.Machine Sys2Proof.Spec

/-! ### Checks in order -/

/-- The parser's answer `r` is the error with the code `o`, or the record `blk` where `o` is `none`. -/
def Reports (r : Except ErrCode Block) (o : Option Byte) (blk : Block) : Prop :=
  match o with
  | some code => ∃ e, r = .error e ∧ errCode e = code
  | none => r = .ok blk

/-- One check on both sides: where it fails both give its error, else the rest decides (R255). -/
theorem Reports.check {c c' : Prop} [Decidable c] [Decidable c'] {r : Except ErrCode Block} {o : Option Byte}
    {blk : Block} (e : ErrCode) (same : c ↔ c') (rest : ¬c → Reports r o blk) :
    Reports (if c then .error e else r) (if c' then some (errCode e) else o) blk := by
  by_cases h : c
  · rw [if_pos h, if_pos (same.1 h)]; exact ⟨e, rfl, rfl⟩
  · rw [if_neg h, if_neg (mt same.2 h)]; exact rest h

/-! ### The PCB by its number -/

/-- Bit `k` of a PCB by its number. -/
theorem pcbBit_eq_ofNat (p : Byte) (k : Nat) : pcbBit p k = BitVec.ofNat 1 (p.toNat / 2 ^ k) := by
  rw [pcbBit, BitVec.extractLsb', Nat.shiftRight_eq_div_pow]

/-- The one pattern of an R-block's PCB that stands for no error value (R77). -/
theorem rErrorOfBits_of_unmapped : ∀ {p : Byte}, p.toNat % 4 = 3 → rErrorOfBits (p.extractLsb' 0 2) = none := by
  decide

/-- The error value of the other R-blocks by the number of the PCB (R77). -/
theorem rErrorOfBits_of_mapped : ∀ {p : Byte}, ¬p.toNat % 4 = 3 → rErrorOfBits (p.extractLsb' 0 2) =
    some (if p.toNat % 4 = 0 then .noError else if p.toNat % 4 = 1 then .edcError else .otherError) := by
  decide

/-- Kind dispatch: the two checks of an R-block, then the record of R160. -/
theorem classify_reports {b : Bytes} (h : b.length = 4 + natAt b 2) :
    Reports (classify b (natAt b 2))
      (if 128 ≤ natAt b 1 ∧ natAt b 1 < 192 ∧ natAt b 2 ≠ 0 then some 0x22
       else if 128 ≤ natAt b 1 ∧ natAt b 1 < 192 ∧ natAt b 1 % 4 = 3 then some 0x24
       else none) (parsedBlock b) := by
  have hInf := slice_add b 3 (natAt b 2)
  have hEdc : [byteAt b (3 + natAt b 2)] = b.drop (b.length - 1) := by
    rw [h, show 4 + natAt b 2 - 1 = 3 + natAt b 2 by omega, drop_edc h]
  have hKind : kindOf (byteAt b 1) = if natAt b 1 < 128 then .i else if natAt b 1 < 192 then .r else .s :=
    everyPcbHasOneKind.1 _
  by_cases isI : natAt b 1 < 128
  · rw [if_pos isI] at hKind
    rw [if_neg (by omega), if_neg (by omega)]
    simp only [classify, hKind, hInf, hEdc, pcbBit_eq_ofNat]
    exact congrArg Except.ok (if_pos isI).symm
  by_cases isR : natAt b 1 < 192
  · rw [if_neg isI, if_pos isR] at hKind
    simp only [classify, hKind, hEdc, pcbBit_eq_ofNat]
    refine .check .frmRNonempty (by omega) fun _ => ?_
    by_cases unmapped : natAt b 1 % 4 = 3
    · rw [if_pos (by omega), rErrorOfBits_of_unmapped unmapped]
      exact ⟨.frmRErrorUnmapped, rfl, rfl⟩
    · rw [if_neg (by omega), rErrorOfBits_of_mapped unmapped]
      exact congrArg Except.ok ((if_neg isI).trans (if_pos isR)).symm
  · rw [if_neg isI, if_neg isR] at hKind
    rw [if_neg (by omega), if_neg (by omega)]
    simp only [classify, hKind, hInf, hEdc]
    exact congrArg Except.ok ((if_neg isI).trans (if_neg isR)).symm

/-- With the LRC selected `ParseBlock` is the checks and the record of R160. -/
theorem parseBlock_reports (b : Bytes) : Reports (parseBlock .lrc b) (parseError b) (parsedBlock b) := by
  unfold parseBlock parseError
  rw [if_neg (by decide)]
  refine .check .frmTruncated .rfl fun _ => ?_
  refine .check .frmTruncated .rfl fun notShort => ?_
  refine .check .frmChecksum .rfl fun notLong => ?_
  refine .check .frmChecksum (by rw [lrc_eq_xorUpTo]; rfl) fun _ => ?_
  refine .check .frmLenReserved .rfl fun _ => ?_
  exact classify_reports (by omega)

/-- A sequence that fails a check is refused with that check's code (R160). -/
theorem parseBlock_of_refused {b : Bytes} {code : Byte} (h : parseError b = some code) :
    ∃ e, parseBlock .lrc b = .error e ∧ errCode e = code := by
  have hReports := parseBlock_reports b
  rw [h] at hReports
  exact hReports

/-- A sequence that passes every check gives the record of R160. -/
theorem parseBlock_of_accepted {b : Bytes} (h : parseError b = none) : parseBlock .lrc b = .ok (parsedBlock b) := by
  have hReports := parseBlock_reports b
  rw [h] at hReports
  exact hReports

end Sys2Proof.Proofs
end

section
/-! PROOFS of family 42_block, O8, O30, O31 and O32: the three frame commands, and a reply that ends a TRANSCEIVE. -/

namespace Sys2Proof.Proofs

open Sys2Proof.Machine Sys2Proof.Spec

/-- With CRC selected nothing is parsed (R141, R160). -/
theorem parseBlock_crc (b : Bytes) : parseBlock .crc b = .error .capCrcUnsupported := rfl

/-- More than 254 INF bytes are refused whatever checksum is selected (R151, R255). -/
theorem buildI_of_tooLong {inf : Bytes} (h : 254 < inf.length) (t : EdcType) (seq chaining : Bit) :
    buildI t seq chaining inf = .error .encPayloadTooLong := by
  rw [buildI_cases, if_pos h]

/-- With CRC selected no I-block is built (R141). -/
theorem buildI_crc {inf : Bytes} (h : ¬254 < inf.length) (seq chaining : Bit) :
    buildI .crc seq chaining inf = .error .capCrcUnsupported := by
  rw [buildI_cases, if_neg h]

/-! ### The commands -/

/-- FRAME_BUILD_I builds with the selection that stands when it is accepted (R152). -/
theorem exec_frameBuildI (seq chaining : Bit) (inf : Bytes) (s : State) :
    exec (.frameBuildI seq chaining inf) s = .next (acceptCommand 0x20 (.frameI seq.toNat chaining.toNat inf)
      (withBuffer inf (finish ((buildI s.edcType seq chaining inf).map .bytes))) s) := rfl

/-- FRAME_PARSE parses with the selection that stands when it is accepted (R168). -/
theorem exec_frameParse (b : Bytes) (s : State) :
    exec (.frameParse b) s = .next (acceptCommand 0x22 (.bytes b)
      (withBuffer b (finish ((parseBlock s.edcType b).map .block))) s) := rfl

/-- Settles O30: the buffer check, the INF bound, the capability, then the I-block. -/
theorem frameBuildIResult : Obligations.FrameBuildIResult := by
  intro s seq chaining inf idle
  by_cases overlong : Config.bufCap < inf.length
  · rw [if_pos overlong]
    exact overlongBytesOperandIsRefused s (.frameBuildI seq chaining inf) _ _ _ rfl idle overlong
  have fits := Nat.not_lt.1 overlong
  rw [if_neg overlong, exec_frameBuildI]
  split_ifs with tooLong crc
  · exact answers_next (acceptCommand_finish_error idle fits (buildI_of_tooLong tooLong _ _ _) _ _ _)
  · rw [crc]
    exact answers_next (acceptCommand_finish_error idle fits (buildI_crc tooLong _ _) _ _ _)
  · rw [(edcType_cases s.edcType).resolve_right crc]
    exact answers_next (acceptCommand_finish_ok idle fits (buildI_lrc (Nat.not_lt.1 tooLong) _ _) _ _ _)

/-- Settles O31: the command has no operand to check, so it completes with what `BuildR` answers. -/
theorem frameBuildRResult : Obligations.FrameBuildRResult := by
  intro s n idle
  apply answers_next
  rw [acceptCommand_of_idle idle, emit_edcType]
  split_ifs with crc
  · rw [crc, buildR_crc]; rfl
  · rw [(edcType_cases s.edcType).resolve_right crc, buildR_lrc]; rfl

/-- Settles O32: the buffer check, the capability, then the checks and the record of R160. -/
theorem frameParseResult : Obligations.FrameParseResult := by
  intro s b idle
  by_cases overlong : Config.bufCap < b.length
  · rw [if_pos overlong]
    exact overlongBytesOperandIsRefused s (.frameParse b) _ _ _ rfl idle overlong
  have fits := Nat.not_lt.1 overlong
  rw [if_neg overlong, exec_frameParse]
  split_ifs with crc
  · rw [crc]
    exact answers_next (acceptCommand_finish_error idle fits (parseBlock_crc b) _ _ _)
  rw [(edcType_cases s.edcType).resolve_right crc]
  cases h : parseError b with
  | some code =>
    obtain ⟨e, hParse, rfl⟩ := parseBlock_of_refused h
    exact answers_next (acceptCommand_finish_error idle fits hParse _ _ _)
  | none => exact answers_next (acceptCommand_finish_ok idle fits (parseBlock_of_accepted h) _ _ _)

/-! ### A refused reply -/

/-- A reply the parser refuses completes the command with the parser's error, after its event (R190, R262). -/
theorem takeAnswer_of_refused {s : State} {r : Bytes} {e : ErrCode} (waits : s.phase = .tSend ∨ s.phase = .tRecv)
    (h : parseBlock s.edcType r = .error e) :
    takeAnswer (.replied r) s = .done (endsErr [.rx r] (errCode e) { s with outstanding := none }) := by
  rw [takeAnswer_block waits]
  obtain ⟨blk, hOk, -⟩ | ⟨e', hError, hTake⟩ := takeBlock_cases r s
  · cases h.symm.trans hOk
  · cases h.symm.trans hError
    exact hTake

/-- Settles O8: the reply is taken, parsed and refused in one step. -/
theorem refusedReplyEndsTransceive : Obligations.RefusedReplyEndsTransceive := by
  intro s k rq r rest code hp ho waits edc refused
  obtain ⟨e, hParse, rfl⟩ := parseBlock_of_refused refused
  rw [← edc] at hParse
  have hTake := takeAnswer_of_refused (s := { s with pending := rest }) waits hParse
  rw [step_answer hp ho, hTake]
  exact answers_next rfl

end Sys2Proof.Proofs
end

section
/-! PROOFS of family 43_t1_protocol, the single steps of CONNECT, TRANSCEIVE and DISCONNECT: O33 to O42 and O44. -/

namespace Sys2Proof.Proofs

open Sys2Proof.Machine Sys2Proof.Spec

/-! ### The model's operations as the statements write them -/

/-- Raising an error is the completion the statements write out (R262). -/
theorem raise_eq_endsErr (e : ErrCode) (s : State) : raise e s = endsErr [] (errCode e) s := by
  simp [raise, deliver, endsErr, endsWith]

/-- The same of success (R36). -/
theorem succeed_eq_endsOk (v : Option Value) (s : State) : succeed v s = endsOk [] v s := by
  simp [succeed, okCode, deliver, endsOk, endsWith]

/-- Sending a fragment while a command is in progress (R190, R192). -/
theorem fragmentSent_eq_sendsFragment {s : State} (busy : s.busy = true) : fragmentSent s = sendsFragment [] s := by
  simp [fragmentSent, issue, requestEvent, sendsFragment, busy]

/-- The same after an event. -/
theorem fragmentSent_emit {s : State} (busy : s.busy = true) (e : Event) :
    fragmentSent (emit e s) = sendsFragment [e] s := by
  rw [sendsFragment, ← busy]; rfl

/-- Issuing a request while a command is in progress (R34, R205). -/
theorem issue_eq_requests {s : State} (busy : s.busy = true) (phase : Phase) (rq : Request) :
    issue phase rq s = requests [requestEvent rq] phase rq s := by
  simp [issue, requests, busy]

/-! ### CONNECT and DISCONNECT -/

/-- Settles O33, by the connection. -/
theorem connectPowersOn : Obligations.ConnectPowersOn := by
  intro s idle
  apply answers_next
  rw [acceptCommand_of_idle idle]
  exact ite_congr rfl (fun _ => rfl) (fun _ => by simp [issue, requests, requestEvent, Opcode.code])

/-- Settles O44: the command has no check to fail. -/
theorem disconnectResult : Obligations.DisconnectResult := by
  intro s idle
  apply answers_next
  rw [acceptCommand_of_idle idle]; rfl

/-- An answer that ends the step (R205). -/
theorem step_answer_done {s t : State} {k : Nat} {rq : Request} {a : Answer} {rest : List Input}
    (hp : s.pending = .answer k a :: rest) (ho : s.outstanding = some (k, rq))
    (h : takeAnswer a { s with pending := rest } = .done t) : step s = .next t := by
  rw [step_answer hp ho, h]

theorem takeAnswer_powered {s : State} (h : s.phase = .cPower) :
    takeAnswer .powered s = .done (powerOnDone (clearOutstanding s)) := by
  simp [takeAnswer, h]

theorem takeAnswer_ppsEcho {s : State} (h : s.phase = .cPps) (r : Bytes) :
    takeAnswer (.replied r) s = .done (ppsEcho r (emit (.rx r) (clearOutstanding s))) := by
  simp [takeAnswer, h]

theorem takeAnswer_err {s : State} (h : s.phase ≠ .idle) (d : TransportErr) :
    takeAnswer (.err d) s = .done (takeError d s) := by
  cases hp : s.phase with
  | idle => exact absurd hp h
  | _ => simp [takeAnswer, hp]

/-- Settles O34, by the transport's capability flag. -/
theorem powerOnAnsweredStartsPps : Obligations.PowerOnAnsweredStartsPps := by
  intro s k rq rest busy waits ho hp
  rw [step_answer_done hp ho (takeAnswer_powered (s := { s with pending := rest }) waits)]
  apply answers_next
  exact ite_congr rfl (fun _ => succeed_eq_endsOk ..)
    (fun _ => issue_eq_requests (s := { s with pending := rest, outstanding := none }) busy ..)

/-- Settles O35, by the echo. -/
theorem ppsEchoMustBeExact : Obligations.PpsEchoMustBeExact := by
  intro s k rq r rest waits ho hp
  rw [step_answer_done hp ho (takeAnswer_ppsEcho (s := { s with pending := rest }) waits r)]
  apply answers_next
  exact ite_congr rfl (fun _ => rfl) (fun _ => rfl)

/-- Settles O36: in every phase but IDLE the answer ends the command. -/
theorem transportErrorPassesThrough : Obligations.TransportErrorPassesThrough := by
  intro s k rq d rest waits ho hp
  rw [step_answer_done hp ho (takeAnswer_err (s := { s with pending := rest }) waits d)]
  exact answers_next rfl

/-! ### TRANSCEIVE -/

/-- An accepted TRANSCEIVE that has passed its checks and is about to send fragment 0 (R190). -/
def transceiveBegun (req : Bytes) (s : State) : State :=
  { emit (.cmd 0x31 (.bytes req)) s with busy := true, req := req, off := 0, rsp := [] }

/-- TRANSCEIVE of a request that fits: the empty request, the connection, then fragment 0 (R190). -/
theorem exec_transceive_of_fits {s : State} {req : Bytes} (idle : s.busy = false)
    (fits : req.length ≤ Config.bufCap) :
    exec (.transceive req) s = .next (if req = [] then errAfter 0x31 (.bytes req) 0x10 s
      else if s.conn = false then errAfter 0x31 (.bytes req) 0x42 s else sendFragment (transceiveBegun req s)) := by
  refine congrArg Host.Outcome.next ?_
  rw [acceptCommand_of_idle idle, withBuffer_of_fits fits]
  exact ite_congr (propext List.length_eq_zero_iff) (fun _ => rfl) fun _ => rfl

/-- Settles O37: the buffer check, the empty request, the connection, then the capability and fragment 0. -/
theorem transceiveSendsFirstFragment : Obligations.TransceiveSendsFirstFragment := by
  intro s req idle
  by_cases overlong : Config.bufCap < req.length
  · rw [if_pos overlong]
    exact overlongBytesOperandIsRefused s (.transceive req) _ _ _ rfl idle overlong
  rw [if_neg overlong, exec_transceive_of_fits idle (Nat.not_lt.1 overlong)]
  refine ⟨_, rfl, ?_⟩
  split_ifs with empty disconnected crc
  · rfl
  · rfl
  · obtain ⟨-, lrc, -⟩ | ⟨-, e⟩ := sendFragment_cases (transceiveBegun req s)
    · cases lrc.symm.trans crc
    · rw [e]; rfl
  · rw [sendFragment_eq_fragmentSent (s := transceiveBegun req s) ((edcType_cases s.edcType).resolve_right crc)]
    rfl

/-! ### Received blocks -/

theorem receive_of_tSend {s : State} (h : s.phase = .tSend) (inSend inRecv : State → State) :
    receive inSend inRecv s = .next (inSend s) := by
  simp only [receive, h]

theorem receive_of_tRecv {s : State} (h : s.phase = .tRecv) (inSend inRecv : State → State) :
    receive inSend inRecv s = .next (inRecv s) := by
  simp only [receive, h]

/-- With the LRC selected a reply that lets the send phase go on sends the next fragment, if there is one (R193,
R194). -/
theorem proceed_eq {s : State} (edc : s.edcType = .lrc) :
    proceed s = if s.off < s.req.length then fragmentSent s else raise .protoNoResponse s := by
  rw [proceed, sendFragment_eq_fragmentSent edc]

/-- With the LRC selected the receive loop acknowledges or returns the response (R198). -/
theorem acknowledge_eq {s : State} (edc : s.edcType = .lrc) (chaining : Bit) :
    acknowledge chaining s = if chaining = 1 then issue .tRecv (.exchange (ackBlock s.rxseq)) s
      else succeed (some (.bytes s.rsp)) s := by
  simp only [acknowledge, edc, buildR_lrc, ackBlock]

/-- What the receive loop does once `rsp` is the response so far (R198). -/
theorem answers_acknowledge {s : State} (busy : s.busy = true) (edc : s.edcType = .lrc) (rsp : Bytes)
    (seq chaining : Bit) :
    Answers (.next (acknowledge chaining { s with rsp := rsp, rxseq := seq })) (receives rsp seq chaining s) := by
  refine ⟨_, rfl, ?_⟩
  rw [acknowledge_eq (s := { s with rsp := rsp, rxseq := seq }) edc, receives]
  split_ifs
  · rw [issue_eq_requests (s := { s with rsp := rsp, rxseq := seq }) busy]; rfl
  · rw [succeed_eq_endsOk]; rfl

/-- Settles O38: the S-block is recorded before the send phase goes on. -/
theorem sBlockInSendPhaseIsLogged : Obligations.SBlockInSendPhaseIsLogged := by
  intro s nad low inf busy phase edc
  have hPcb : pcbOfS low = BitVec.ofNat 8 (192 + low.toNat) := by revert low; decide
  have hExec : exec (.pcbS nad low inf) s = .next (proceed (emit (.sblock (pcbOfS low) inf) s)) :=
    receive_of_tSend phase ..
  rw [hExec, hPcb, proceed_eq (s := emit _ s) edc]
  exact answers_next (ite_congr rfl (fun _ => fragmentSent_emit busy _) fun _ => rfl)

/-- Settles O39, by the error value. -/
theorem rBlockInSendPhase : Obligations.RBlockInSendPhase := by
  intro s nad bit5 seq mid error busy phase edc
  have hExec : exec (.pcbR nad bit5 seq mid error) s = .next (rblockReply error s) := receive_of_tSend phase ..
  rw [hExec]
  apply answers_next
  cases error with
  | edcError => exact raise_eq_endsErr ..
  | otherError => exact raise_eq_endsErr ..
  | noError =>
    rw [rblockReply, proceed_eq edc]
    exact ite_congr rfl (fun _ => fragmentSent_eq_sendsFragment busy) fun _ => raise_eq_endsErr ..

/-- Settles O40: an underflow while request bytes remain, else the response begins. -/
theorem iBlockInSendPhase : Obligations.IBlockInSendPhase := by
  intro s nad seq chaining low inf busy phase edc
  have hExec : exec (.pcbI nad seq chaining low inf) s = .next (firstIBlock seq chaining inf s) :=
    receive_of_tSend phase ..
  rw [hExec, firstIBlock]
  split_ifs
  · exact answers_next (raise_eq_endsErr ..)
  · exact answers_acknowledge busy edc ..

/-- Settles O41: the capacity check, then the receive loop with the longer response. -/
theorem iBlockInReceivePhase : Obligations.IBlockInReceivePhase := by
  intro s nad seq chaining low inf busy phase edc
  have hExec : exec (.pcbI nad seq chaining low inf) s = .next (furtherIBlock seq chaining inf s) :=
    receive_of_tRecv phase ..
  rw [hExec, furtherIBlock]
  by_cases overflow : Config.bufCap < s.rsp.length + inf.length
  · rw [if_neg (mt (withinCap_iff _).1 (Nat.not_le.2 overflow)), if_pos overflow]
    exact answers_next (raise_eq_endsErr ..)
  · rw [if_pos ((withinCap_iff _).2 (Nat.not_lt.1 overflow)), if_neg overflow]
    exact answers_acknowledge busy edc ..

/-- Settles O42: both kinds do the same in the receive phase. -/
theorem receivePhaseExpectsIBlock : Obligations.ReceivePhaseExpectsIBlock := by
  intro s nad low inf bit5 seq mid error _ phase
  have refused (inSend : State → State) :
      Answers (receive inSend (raise .protoExpectedIblock) s) (endsErr [] 0x31 s) := by
    rw [receive_of_tRecv phase]
    exact answers_next (raise_eq_endsErr ..)
  exact ⟨refused _, refused _⟩

end Sys2Proof.Proofs
end

section
/-! PROOFS of family 43_t1_protocol, O45 and O46: whole runs of a TRANSCEIVE. Each reply of the transport is one step,
so the send loop goes by induction over the acknowledgements and the receive loop by induction over the chained I-blocks. -/

namespace Sys2Proof.Proofs

open Sys2Proof.Machine Sys2Proof.Spec

/-! ### Runs that return a response -/

/-- `n` steps from `s` complete the command OK with the response `rsp`; on the way `blocks` are sent and the counter
comes to `seq`. -/
def Returns (n : Nat) (s : State) (blocks : List Bytes) (seq : Bit) (rsp : Bytes) : Prop :=
  ∃ t evs, core.run n s = .next t ∧ t.trace = s.trace ++ evs ∧ sentBlocks evs = blocks ∧ t.seq = seq ∧
    t.conn = s.conn ∧ t.busy = false ∧ t.results = s.results ++ [⟨.ok, 0x00, none, some (.bytes rsp)⟩]

theorem run_succ {s t : core.State} (h : core.step s = .next t) (n : Nat) : core.run (n + 1) s = core.run n t := by
  rw [Host.Core.run, h]

/-- A step that delivers no record comes before a run. -/
theorem Returns.cons {n : Nat} {s u : State} {evs : List Event} {blocks : List Bytes} {seq : Bit} {rsp : Bytes}
    (hStep : step s = .next u) (hTrace : u.trace = s.trace ++ evs) (hConn : u.conn = s.conn)
    (hResults : u.results = s.results) (h : Returns n u blocks seq rsp) :
    Returns (n + 1) s (sentBlocks evs ++ blocks) seq rsp := by
  obtain ⟨t, evs', hRun, hTrace', rfl, hSeq, hConn', hBusy, hResults'⟩ := h
  refine ⟨t, evs ++ evs', (run_succ hStep n).trans hRun, ?_, sentBlocks_append .., hSeq, hConn'.trans hConn, hBusy,
    ?_⟩
  · rw [hTrace', hTrace, List.append_assoc]
  · rw [hResults', hResults]

/-- A step that returns the response is a whole run. -/
theorem returns_of_succeed {s u : State} {rsp : Bytes} {evs : List Event}
    (hStep : step s = .next (succeed (some (.bytes rsp)) u)) (hTrace : u.trace = s.trace ++ evs)
    (hQuiet : sentBlocks evs = []) (hConn : u.conn = s.conn) (hResults : u.results = s.results) :
    Returns 1 s [] u.seq rsp := by
  refine ⟨_, evs ++ [.result .ok 0x00 (some (.bytes rsp))], run_succ hStep 0, ?_, ?_, rfl, hConn, rfl, ?_⟩
  · rw [succeed_trace, hTrace, List.append_assoc]
  · rw [sentBlocks_append, hQuiet]; rfl
  · rw [succeed_results, hResults]

/-! ### Replies -/

/-- An I-block as built is one with NAD 0 and its unnamed bits 0 (R73, R79). -/
theorem decodeFrame_iBlock {inf : Bytes} (h : inf.length ≤ 254) (seq chaining : Bit) :
    decodeFrame (iBlock seq chaining inf) = .ok (.pcbI 0x00 seq chaining 0 inf) := by
  rw [iBlock, ← frameBytes_eq_lrcBlock (pcbOfI_eq_ofNat seq chaining)]
  exact decodeFrame_pcbI 0x00 seq chaining 0 h

/-- An acknowledgement is an R-block that reports no error (R155, R157). -/
theorem decodeFrame_ackBlock (n : Bit) : decodeFrame (ackBlock n) = .ok (.pcbR 0x00 0 (n + 1) 0 .noError) := by
  have hBytes : ackBlock n = frameBytes 0x00 (pcbOfR 0 (n + 1) 0 .noError) [] :=
    Except.ok.inj ((buildR_lrc n).symm.trans (buildR_lrc_eq_frameBytes n))
  rw [hBytes]
  exact decodeFrame_pcbR 0x00 0 (n + 1) 0 .noError

/-- A TRANSCEIVE with the LRC selected waits for the answer to request `k`, the last one issued. -/
structure AwaitsBlock (k : Nat) (s : State) : Prop where
  phase : s.phase = .tSend ∨ s.phase = .tRecv
  edc : s.edcType = .lrc
  outstanding : ∃ rq, s.outstanding = some (k, rq)
  count : k + 1 = s.reqCount

/-- The state in which the received block `r` is executed: `RX` has happened and no request is outstanding (R44,
R205). -/
def replyTaken (r : Bytes) (rest : List Input) (s : State) : State :=
  { s with pending := rest, outstanding := none, trace := s.trace ++ [.rx r] }

/-- A reply that decodes is executed (R205). -/
theorem step_reply {s : State} {k : Nat} {r : Bytes} {rest : List Input} {i : Instr} (waits : AwaitsBlock k s)
    (hp : s.pending = .answer k (.replied r) :: rest) (hd : decodeFrame r = .ok i) :
    step s = exec i (replyTaken r rest s) := by
  obtain ⟨rq, ho⟩ := waits.outstanding
  exact stepExecutesDecodedInstruction.2.2 s k rq r rest i hp ho waits.phase waits.edc hd

/-! ### The receive loop -/

/-- An I-block that comes now makes the response `acc` and its INF: in T_SEND the last fragment is out and the response
begins, in T_RECV `acc` is the response so far (R195, R196). -/
def Collects (acc : Bytes) (s : State) : Prop :=
  (s.phase = .tSend ∧ s.off = s.req.length ∧ acc = []) ∨ (s.phase = .tRecv ∧ s.rsp = acc)

/-- Such an I-block, if the response fits, is acknowledged or returns the response (R190, R195, R196, R198). -/
theorem exec_pcbI_of_collects {acc inf : Bytes} {s : State} (h : Collects acc s) (edc : s.edcType = .lrc)
    (fits : (acc ++ inf).length ≤ Config.bufCap) (nad : Byte) (seq chaining : Bit) (low : BitVec 5) :
    exec (.pcbI nad seq chaining low inf) s =
      .next (if chaining = 1 then issue .tRecv (.exchange (ackBlock seq)) { s with rsp := acc ++ inf, rxseq := seq }
        else succeed (some (.bytes (acc ++ inf))) { s with rsp := acc ++ inf, rxseq := seq }) := by
  have hAck := acknowledge_eq (s := { s with rsp := acc ++ inf, rxseq := seq }) edc chaining
  obtain ⟨phase, sent, rfl⟩ | ⟨phase, rfl⟩ := h
  · exact (receive_of_tSend phase ..).trans (congrArg Host.Outcome.next ((if_neg (by omega)).trans hAck))
  · rw [List.length_append] at fits
    exact (receive_of_tRecv phase ..).trans
      (congrArg Host.Outcome.next ((if_pos ((withinCap_iff _).2 fits)).trans hAck))

/-- An unchained I-block returns the response (R198). -/
theorem returns_of_lastIBlock {k : Nat} {s : State} {acc inf : Bytes} {seq : Bit} {rest : List Input}
    (waits : AwaitsBlock k s) (collects : Collects acc s) (hInf : inf.length ≤ 254)
    (fits : (acc ++ inf).length ≤ Config.bufCap) (hp : s.pending = .answer k (.replied (iBlock seq 0 inf)) :: rest) :
    Returns 1 s [] s.seq (acc ++ inf) := by
  have hStep := step_reply waits hp (decodeFrame_iBlock hInf seq 0)
  rw [exec_pcbI_of_collects (s := replyTaken _ rest s) collects waits.edc fits, if_neg (by decide)] at hStep
  exact returns_of_succeed (u := { replyTaken _ rest s with rsp := acc ++ inf, rxseq := seq })
    (evs := [.rx (iBlock seq 0 inf)]) hStep rfl rfl rfl rfl

/-- The chained I-blocks are acknowledged one by one and the last one returns the response (R190, R198). -/
theorem returns_of_chainedIBlocks (parts : List (Bit × Bytes)) {k : Nat} {s : State} {acc last : Bytes} {seq : Bit}
    (waits : AwaitsBlock k s) (collects : Collects acc s) (hParts : ∀ p ∈ parts, p.2.length ≤ 254)
    (hLast : last.length ≤ 254) (fits : (acc ++ ((parts.map Prod.snd).flatten ++ last)).length ≤ Config.bufCap)
    (hp : s.pending = answersFrom k (parts.map (fun p => iBlock p.1 1 p.2) ++ [iBlock seq 0 last])) :
    Returns (parts.length + 1) s (parts.map fun p => ackBlock p.1) s.seq
      (acc ++ ((parts.map Prod.snd).flatten ++ last)) := by
  induction parts generalizing k s acc with
  | nil => exact returns_of_lastIBlock waits collects hLast fits hp
  | cons p ps ih =>
    obtain ⟨hInf, hRest⟩ := List.forall_mem_cons.1 hParts
    have hResponse : acc ++ (((p :: ps).map Prod.snd).flatten ++ last) =
        acc ++ p.2 ++ ((ps.map Prod.snd).flatten ++ last) := by simp
    rw [hResponse] at fits ⊢
    have hStep := step_reply waits hp (decodeFrame_iBlock hInf p.1 1)
    have partFits : (acc ++ p.2).length ≤ Config.bufCap := by rw [List.length_append] at fits; omega
    rw [exec_pcbI_of_collects (s := replyTaken _ _ s) collects waits.edc partFits, if_pos rfl] at hStep
    refine Returns.cons (evs := [.rx (iBlock p.1 1 p.2), .tx (ackBlock p.1)]) hStep ?_ rfl rfl ?_
    · simp [replyTaken, requestEvent]
    · refine ih ⟨.inr rfl, waits.edc, ⟨_, rfl⟩, rfl⟩ (.inr ⟨rfl, rfl⟩) hRest fits ?_
      exact congrArg (answersFrom · _) waits.count

/-- Settles O46: the response starts out empty with the last fragment out. -/
theorem chainedResponseIsReassembled : Obligations.ChainedResponseIsReassembled := by
  intro s k rq parts seq last busy phase edc sent ho count hParts hLast fits hp
  obtain ⟨t, evs, hRun, hTrace, hSent, hSeq, -, hBusy, hResults⟩ :=
    returns_of_chainedIBlocks parts (acc := []) ⟨.inl phase, edc, ⟨rq, ho⟩, count⟩ (.inl ⟨phase, sent, rfl⟩) hParts
      hLast fits hp
  exact ⟨t, evs, hRun, hTrace, hSent, hSeq, hBusy, hResults⟩

/-! ### The send loop -/

/-- Fragment `i` exists exactly when request bytes remain after `i` full fragments (R191). -/
theorem lt_fragmentCount_iff (req : Bytes) (i : Nat) : i < fragmentCount req ↔ 254 * i < req.length := by
  unfold fragmentCount ceilOf
  split_ifs <;> omega

/-- `i` fragments of the request are out, the first with sequence bit `seq` (R191, R192). -/
structure FragmentsOut (req : Bytes) (seq : Bit) (i : Nat) (s : State) : Prop where
  edc : s.edcType = .lrc
  req : s.req = req
  off : s.off = min (254 * i) s.req.length
  seq : s.seq = seq + BitVec.ofNat 1 i

/-- The next fragment is fragment `i` (R191, R202). -/
theorem FragmentsOut.fragmentBlock_eq {req : Bytes} {seq : Bit} {i : Nat} {s : State} (h : FragmentsOut req seq i s)
    (more : i < fragmentCount req) : fragmentBlock s = fragmentOf req seq i := by
  have hMore := (lt_fragmentCount_iff req i).1 more
  have hOff : s.off = 254 * i := by rw [h.off, h.req]; omega
  have hLast : 254 * i + 254 < req.length ↔ i + 1 < fragmentCount req := by
    rw [lt_fragmentCount_iff]; omega
  simp only [fragmentBlock, fragmentOf, fragmentBytes, hOff, h.req, h.seq, hLast]

/-- A reply that is taken leaves the fragments as they are. -/
theorem FragmentsOut.replyTaken {req : Bytes} {seq : Bit} {i : Nat} {s : State} (h : FragmentsOut req seq i s)
    (r : Bytes) (rest : List Input) : FragmentsOut req seq i (replyTaken r rest s) :=
  { h with }

/-- Sending it makes one fragment more (R192). -/
theorem FragmentsOut.fragmentSent {req : Bytes} {seq : Bit} {i : Nat} {s : State} (h : FragmentsOut req seq i s) :
    FragmentsOut req seq (i + 1) (fragmentSent s) where
  edc := h.edc
  req := h.req
  off := by
    show s.off + (fragmentBytes s).length = _
    rw [fragmentBytes, List.length_take, List.length_drop, h.off]
    show _ = min _ s.req.length
    omega
  seq := by
    show s.seq + 1 = _
    rw [h.seq, BitVec.ofNat_add, BitVec.add_assoc]; rfl

/-- While fragments remain, an acknowledgement makes the block send the next one (R194). -/
theorem step_ackBlock {req : Bytes} {seq n : Bit} {i k : Nat} {s : State} {rest : List Input} (phase : s.phase = .tSend)
    (waits : AwaitsBlock k s) (out : FragmentsOut req seq i s) (more : i < fragmentCount req)
    (hp : s.pending = .answer k (.replied (ackBlock n)) :: rest) :
    step s = .next (fragmentSent (replyTaken (ackBlock n) rest s)) := by
  have unsent : s.off < s.req.length := by
    have := (lt_fragmentCount_iff req i).1 more
    rw [out.off, out.req]; omega
  rw [step_reply waits hp (decodeFrame_ackBlock n)]
  refine (receive_of_tSend (s := replyTaken _ rest s) phase ..).trans (congrArg Host.Outcome.next ?_)
  exact (proceed_eq (s := replyTaken _ rest s) waits.edc).trans (if_pos unsent)

/-- The acknowledgements are answered by the remaining fragments in order, and the I-block returns the response. -/
theorem returns_of_acks {req inf : Bytes} {seq rseq : Bit} (hInf : inf.length ≤ 254) (acks : List Bit) {i k : Nat}
    {s : State} (phase : s.phase = .tSend) (waits : AwaitsBlock k s) (out : FragmentsOut req seq i s)
    (hCount : acks.length + i = fragmentCount req)
    (hp : s.pending = answersFrom k (acks.map ackBlock ++ [iBlock rseq 0 inf])) :
    Returns (acks.length + 1) s ((List.range' i acks.length).map (fragmentOf req seq))
      (seq + BitVec.ofNat 1 (fragmentCount req)) inf := by
  induction acks generalizing i k s with
  | nil =>
    have hAll : i = fragmentCount req := by simpa using hCount
    have hSent : s.off = s.req.length := by
      have := mt (lt_fragmentCount_iff req i).2 (by omega)
      rw [out.off, out.req]; omega
    rw [← hAll, ← out.seq]
    exact returns_of_lastIBlock waits (.inl ⟨phase, hSent, rfl⟩) hInf (le_bufCap (by simp; omega)) hp
  | cons n ns ih =>
    rw [List.length_cons] at hCount
    have more : i < fragmentCount req := by omega
    refine Returns.cons (evs := [.rx (ackBlock n), .tx (fragmentOf req seq i)])
      (step_ackBlock phase waits out more hp) ?_ rfl rfl ?_
    · rw [fragmentSent, (out.replyTaken _ _).fragmentBlock_eq more]
      simp [replyTaken, requestEvent]
    · refine ih rfl ⟨.inl rfl, waits.edc, ⟨_, rfl⟩, rfl⟩ (out.replyTaken _ _).fragmentSent (by omega) ?_
      exact congrArg (answersFrom · _) waits.count

/-- A TRANSCEIVE that passes every check sends fragment 0 in the step that accepts it (R190). -/
theorem step_transceive {s : State} {req : Bytes} {rest : List Input}
    (hp : s.pending = .command 0x31 (.bytes req) :: rest) (idle : s.busy = false) (conn : s.conn = true)
    (edc : s.edcType = .lrc) (nonempty : req ≠ []) (fits : req.length ≤ Config.bufCap) :
    step s = .next (fragmentSent (transceiveBegun req { s with pending := rest })) := by
  rw [step_command hp]
  refine (exec_transceive_of_fits (s := { s with pending := rest }) idle fits).trans (congrArg Host.Outcome.next ?_)
  rw [if_neg nonempty, if_neg (by simp [conn])]
  exact sendFragment_eq_fragmentSent edc

/-- No fragment is out before. -/
theorem fragmentsOut_transceiveBegun {s : State} (edc : s.edcType = .lrc) (req : Bytes) :
    FragmentsOut req s.seq 0 (transceiveBegun req s) :=
  ⟨edc, rfl, (Nat.zero_min _).symm, (BitVec.add_zero _).symm⟩

/-- Settles O45: fragment 0 goes out with the command, and the rest as the transport acknowledges. -/
theorem wholeTransceiveSendsEveryFragment : Obligations.WholeTransceiveSendsEveryFragment := by
  intro s req inf acks rseq idle conn edc nonempty fits hInf hCount hp
  have begun (rest : List Input) : FragmentsOut req s.seq 0 (transceiveBegun req { s with pending := rest }) :=
    fragmentsOut_transceiveBegun (s := { s with pending := rest }) edc req
  obtain ⟨t, evs, hRun, hTrace, hSent, hSeq, hConn, hBusy, hResults⟩ :=
    Returns.cons (evs := [.cmd 0x31 (.bytes req), .tx (fragmentOf req s.seq 0)])
      (step_transceive hp idle conn edc nonempty fits)
      (by rw [fragmentSent, (begun _).fragmentBlock_eq (by omega)]; simp [transceiveBegun, requestEvent]) rfl rfl
      (returns_of_acks hInf acks rfl ⟨.inl rfl, edc, ⟨_, rfl⟩, rfl⟩ (begun _).fragmentSent hCount rfl)
  rw [hCount] at hRun
  refine ⟨t, evs, hRun, hTrace, ?_, hSeq, hConn.trans conn, hBusy, hResults⟩
  rw [hSent, ← hCount, List.range_eq_range', List.range'_succ]
  rfl

end Sys2Proof.Proofs
end

section
/-! PROOFS of family 43_t1_protocol, O58: what CONNECT, TRANSCEIVE, DISCONNECT and the received blocks leave. That they
leave `CFG` and `AUTO_NEG` is O56's `keepsConfig_exec`. -/

namespace Sys2Proof.Proofs

open Sys2Proof.Machine Sys2Proof.Spec

/-- From `s` to `t` the connection and the ports are left, at most one record is delivered, and `HOSTFAULT` is not
cleared. -/
def Framed (s t : State) : Prop :=
  t.conn = s.conn ∧ t.regReads = s.regReads ∧ t.pending = s.pending ∧
    (t.results = s.results ∨ ∃ r, t.results = s.results ++ [r]) ∧ (s.hostFault = true → t.hostFault = true)

/-! ### The operations -/

theorem framed_refl (s : State) : Framed s s := ⟨rfl, rfl, rfl, .inl rfl, id⟩

theorem framed_markHostFault (s : State) : Framed s (markHostFault s) := ⟨rfl, rfl, rfl, .inl rfl, fun _ => rfl⟩

theorem framed_raise (e : ErrCode) (s : State) : Framed s (raise e s) := ⟨rfl, rfl, rfl, .inr ⟨_, rfl⟩, id⟩

theorem framed_succeed (v : Option Value) (s : State) : Framed s (succeed v s) := ⟨rfl, rfl, rfl, .inr ⟨_, rfl⟩, id⟩

theorem framed_issue (phase : Phase) (rq : Request) (s : State) : Framed s (issue phase rq s) :=
  ⟨rfl, rfl, rfl, .inl rfl, id⟩

theorem framed_sendFragment (s : State) : Framed s (sendFragment s) := by
  obtain ⟨f, -, -, e⟩ | ⟨-, e⟩ := sendFragment_cases s
  · rw [e]; exact framed_issue .tSend _ { s with seq := s.seq + 1, off := s.off + fragmentSize s }
  · rw [e]; exact framed_raise _ s

theorem framed_proceed (s : State) : Framed s (proceed s) := by
  obtain ⟨-, e⟩ | ⟨-, e⟩ := proceed_cases s
  · rw [e]; exact framed_sendFragment s
  · rw [e]; exact framed_raise _ s

theorem framed_acknowledge (chaining : Bit) (s : State) : Framed s (acknowledge chaining s) := by
  obtain ⟨-, -, e⟩ | ⟨-, -, e⟩ | ⟨-, e⟩ := acknowledge_cases chaining s
  · rw [e]; exact framed_issue _ _ s
  · rw [e]; exact framed_raise _ s
  · rw [e]; exact framed_succeed _ s

theorem framed_firstIBlock (seq chaining : Bit) (inf : Bytes) (s : State) :
    Framed s (firstIBlock seq chaining inf s) := by
  unfold firstIBlock
  split
  · exact framed_raise _ s
  · exact framed_acknowledge chaining { s with rsp := inf, rxseq := seq }

theorem framed_furtherIBlock (seq chaining : Bit) (inf : Bytes) (s : State) :
    Framed s (furtherIBlock seq chaining inf s) := by
  unfold furtherIBlock
  split
  · exact framed_acknowledge chaining { s with rsp := s.rsp ++ inf, rxseq := seq }
  · exact framed_raise _ s

theorem framed_sblockReply (pcb : Byte) (inf : Bytes) (s : State) : Framed s (sblockReply pcb inf s) :=
  framed_proceed (emit (.sblock pcb inf) s)

theorem framed_rblockReply (error : RError) (s : State) : Framed s (rblockReply error s) := by
  cases error with
  | noError => exact framed_proceed s
  | edcError => exact framed_raise _ s
  | otherError => exact framed_raise _ s

/-! ### The instructions -/

/-- A command is ignored while `BUSY = 1`, else its body decides (R285). -/
theorem framed_acceptCommand {op : Byte} {operands : Operands} {body : State → State} {s : State}
    (h : Framed s (body (emit (.cmd op operands) s))) : Framed s (acceptCommand op operands body s) := by
  obtain ⟨-, e⟩ | ⟨-, e⟩ := acceptCommand_cases op operands body s
  · rw [e]; exact framed_markHostFault s
  · rw [e]; exact h

/-- The step answers a next state that `Framed` describes. -/
def KeepsFrame (r : Result) (s : State) : Prop := ∃ t, r = .next t ∧ Framed s t

theorem keepsFrame_receive {inSend inRecv : State → State} {s : State} (hSend : Framed s (inSend s))
    (hRecv : Framed s (inRecv s)) : KeepsFrame (receive inSend inRecv s) s := by
  obtain ⟨-, e⟩ | ⟨-, e⟩ | ⟨-, e⟩ | ⟨-, e⟩ := receive_cases inSend inRecv s
  · exact ⟨_, e, hSend⟩
  · exact ⟨_, e, hRecv⟩
  · exact ⟨_, e, framed_raise _ s⟩
  · exact ⟨_, e, framed_refl s⟩

theorem keepsFrame_connect (s : State) : KeepsFrame (exec .connect s) s := by
  refine ⟨_, rfl, framed_acceptCommand ?_⟩
  split
  · exact framed_raise _ (emit _ s)
  · exact framed_issue .cPower .powerOn { emit _ s with busy := true }

theorem keepsFrame_transceive (req : Bytes) (s : State) : KeepsFrame (exec (.transceive req) s) s := by
  refine ⟨_, rfl, framed_acceptCommand ?_⟩
  obtain ⟨-, e⟩ | ⟨-, e⟩ := withBuffer_cases req _ (emit (.cmd Opcode.transceive.code (.bytes req)) s)
  · rw [e]
    split
    · exact framed_raise _ (emit _ s)
    split
    · exact framed_raise _ (emit _ s)
    · exact framed_sendFragment { emit _ s with busy := true, req := req, off := 0, rsp := [] }
  · rw [e]; exact framed_raise _ (emit _ s)

/-- DISCONNECT writes `CONN`, and nothing else of the frame (R200). -/
theorem keepsFrame_disconnect (s : State) :
    ∃ t, exec .disconnect s = .next t ∧ Framed { s with conn := t.conn } t := by
  refine ⟨_, rfl, ?_⟩
  obtain ⟨-, e⟩ | ⟨-, e⟩ := acceptCommand_cases Opcode.disconnect.code .none _ s
  · rw [e]; exact framed_markHostFault s
  · rw [e]; exact framed_succeed none { emit _ s with conn := false, seq := 0 }

/-- CONNECT leaves `SEQ` in the step that executes it (R184). -/
theorem exec_connect_seq (s : State) : ∃ t, exec .connect s = .next t ∧ t.seq = s.seq := by
  refine ⟨_, rfl, ?_⟩
  obtain ⟨-, e⟩ | ⟨-, e⟩ := acceptCommand_cases Opcode.connect.code .none _ s
  · rw [e]; rfl
  · rw [e]; split <;> rfl

/-- The six instructions, by their kind; DISCONNECT alone writes `CONN`. -/
theorem exec_protocol_framed {i : Instr} (hi : computes i = false) (hRead : ∀ idx, i ≠ .regRead idx)
    (hWrite : ∀ idx v, i ≠ .regWrite idx v) (s : State) :
    ∃ t, exec i s = .next t ∧ Framed { s with conn := t.conn } t ∧ (i ≠ .disconnect → t.conn = s.conn) := by
  have framed {r : Result} (h : KeepsFrame r s) :
      ∃ t, r = .next t ∧ Framed { s with conn := t.conn } t ∧ (i ≠ .disconnect → t.conn = s.conn) := by
    obtain ⟨t, e, hConn, hRest⟩ := h
    exact ⟨t, e, ⟨rfl, hRest⟩, fun _ => hConn⟩
  cases i with
  | connect => exact framed (keepsFrame_connect s)
  | transceive req => exact framed (keepsFrame_transceive req s)
  | disconnect =>
    obtain ⟨t, e, hFramed⟩ := keepsFrame_disconnect s
    exact ⟨t, e, hFramed, (absurd rfl ·)⟩
  | pcbI nad seq chaining low inf =>
    exact framed (keepsFrame_receive (framed_firstIBlock seq chaining inf s) (framed_furtherIBlock seq chaining inf s))
  | pcbS nad low inf => exact framed (keepsFrame_receive (framed_sblockReply _ inf s) (framed_raise _ s))
  | pcbR nad bit5 seq mid error => exact framed (keepsFrame_receive (framed_rblockReply error s) (framed_raise _ s))
  | regRead idx => exact absurd rfl (hRead idx)
  | regWrite idx v => exact absurd rfl (hWrite idx v)
  | _ => cases hi

/-- Settles O58: the configuration, the frame of the six instructions, and CONNECT's `SEQ`. -/
theorem protocolInstructionsFrame : Obligations.ProtocolInstructionsFrame := by
  intro s t i hi hRead hWrite ht
  have notWrite : isRegWrite i = false := by
    cases i with
    | regWrite idx v => exact absurd rfl (hWrite idx v)
    | _ => rfl
  obtain ⟨t', e, hConfig⟩ := keepsConfig_exec notWrite s
  cases e.symm.trans ht
  obtain ⟨t', e, ⟨-, hReads, hPending, hResults, hFault⟩, hConn⟩ := exec_protocol_framed hi hRead hWrite s
  cases e.symm.trans ht
  obtain ⟨hEdc, hAutoNeg⟩ := Prod.mk.inj hConfig
  refine ⟨hEdc, hAutoNeg, hReads, hPending, hConn, ?_, hResults, hFault⟩
  rintro rfl
  obtain ⟨t', e, hSeq⟩ := exec_connect_seq s
  cases e.symm.trans ht
  exact hSeq

end Sys2Proof.Proofs
end

section
/-! PROOFS of family 44_control, O17 and O18: the register images in the spec's own arithmetic, and the two register port
operations. -/

namespace Sys2Proof.Proofs

open Sys2Proof.Machine Sys2Proof.Spec

/-! ### The register images -/

/-- The bits of `STATUS` do not overlap, so their OR is their sum (R23, R230). -/
theorem statusByte_eq_ofNat (s : State) :
    statusByte s = BitVec.ofNat 8 (s.conn.toNat + 2 * s.busy.toNat + 4 * s.seq.toNat) := by
  have sum_of_bits : ∀ (conn busy : Bool) (seq : Bit),
      flagByte conn ||| (flagByte busy <<< 1) ||| (seq.zeroExtend 8 <<< 2) =
        BitVec.ofNat 8 (conn.toNat + 2 * busy.toNat + 4 * seq.toNat) := by decide
  exact sum_of_bits s.conn s.busy s.seq

theorem cfgByte_eq_ite (e : EdcType) : cfgByte e = if e = .lrc then 0x00 else 0x01 := by cases e <;> rfl

/-- Bit 0 of a byte as a number (R231). -/
theorem bitZero_eq_zero_iff (v : Byte) : v.extractLsb' 0 1 = 0 ↔ v.toNat % 2 = 0 := by
  rw [← BitVec.toNat_inj]
  simp

theorem edcTypeOfCfg_eq_ite (v : Byte) : edcTypeOfCfg v = if v.toNat % 2 = 0 then .lrc else .crc :=
  if_congr (bitZero_eq_zero_iff v) rfl rfl

/-! ### The statements -/

/-- Settles O17: the images `STATUS`, `CFG` and `PHASE` in the rule's arithmetic. -/
theorem regReadDeliversRegisterValue : Obligations.RegReadDeliversRegisterValue := by
  intro s idx
  show execRegRead idx s = _
  unfold execRegRead regValue
  rw [statusByte_eq_ofNat, cfgByte_eq_ite]
  cases s.phase <;> rfl

/-- Settles O18, by the index and `BUSY`. -/
theorem regWriteWritesOnlyCfg : Obligations.RegWriteWritesOnlyCfg := by
  intro s idx value
  show execRegWrite idx value s = _
  unfold execRegWrite
  rw [edcTypeOfCfg_eq_ite]
  split
  · split <;> rfl
  · rfl

end Sys2Proof.Proofs
end

section
/-! PROOFS of family 60_exceptions, O52: of the outcomes of a step only the two that deliver a record of the command's own
can deliver one of status ERROR, and both leave what R262 says stays. -/

namespace Sys2Proof.Proofs

open Sys2Proof.Machine Sys2Proof.Spec

/-- The records of status ERROR come from completions: the block has then been left as it was but for the events and the
command's own registers, and no request is outstanding (R262). -/
theorem Effect.errorCompletion {s t : State} {x : Input} {r : ResultRecord} (h : Effect s x t) (hs : Inv s)
    (hResults : t.results = s.results ++ [r]) (hError : r.status = .error) :
    ∃ u, t = deliver r u ∧ Prepared s u ∧ ProperRecord r ∧ u.outstanding = none := by
  have record {r' : ResultRecord} {u : State} (ht : (deliver r' u).results = s.results ++ [r])
      (hu : u.results = s.results) : r' = r := by
    simpa [hu] using ht
  have notOk {v : Option Value} (hr : ⟨.ok, okCode, none, v⟩ = r) : False := by simp [← hr] at hError
  have notSilent {l : List ResultRecord} (hl : l = s.results ++ [r]) (hKept : l = s.results) : False := by
    simp [hKept] at hl
  cases h with
  | commandCompletes idle prep outstanding proper =>
    cases record hResults prep.results
    exact ⟨_, rfl, prep, proper, outstanding.trans (inv_outstanding_none hs idle)⟩
  | answerCompletes _ prep outstanding proper =>
    cases record hResults prep.results
    exact ⟨_, rfl, prep, proper, outstanding⟩
  | disconnects _ prep => exact (notOk (record hResults prep.results)).elim
  | connects _ taken => exact (notOk (record hResults taken.results)).elim
  | powersOn _ _ prep | firstFragment _ _ prep => exact (notSilent hResults prep.results).elim
  | requestsPps _ taken | nextFragment _ taken | acknowledges _ taken =>
    exact (notSilent hResults taken.results).elim
  | _ => exact (notSilent hResults rfl).elim

/-- Settles O52: what the completion with an error leaves, and that a record of status ERROR has no value. -/
theorem errorCompletionKeepsConnection : Obligations.ErrorCompletionKeepsConnection := by
  intro s t r hs ht hResults hError
  obtain ⟨x, rest, -, h⟩ := step_effect ht
  obtain ⟨u, rfl, prep, proper, hOutstanding⟩ :=
    h.errorCompletion (inv_withPorts hs s.hostFault s.regReads rest) hResults hError
  exact ⟨proper.errorValue hError, rfl, rfl, rfl, prep.conn, prep.seq, prep.edcType, hOutstanding, prep.reqCount⟩

end Sys2Proof.Proofs
end

section
/-! PROOFS of family 70_reset_and_hazards, O12, O13 and O16: while `BUSY = 1` the outcomes a command can have come down to
the mark, and a register port word that breaks R286 has no other outcome. -/

namespace Sys2Proof.Proofs

open Sys2Proof.Machine Sys2Proof.Spec

/-- Settles O12: every other outcome of a command needs `BUSY = 0` (R285). -/
theorem commandWhileBusyIsHostFault : Obligations.CommandWhileBusyIsHostFault := by
  intro s op operands rest hp busy
  obtain ⟨t, e, h⟩ := reacts_step_command hp
  have notIdle (idle : s.busy = false) : False := by simp [busy] at idle
  cases h with
  | commandIgnored => exact e
  | commandCompletes idle | disconnects idle | powersOn idle | firstFragment idle => exact (notIdle idle).elim

/-- Settles O13: every other outcome of a register port word needs one that breaks no rule (R286). -/
theorem registerPortViolationIsHostFault : Obligations.RegisterPortViolationIsHostFault := by
  intro s w data rest hp violation
  obtain ⟨t, e, h⟩ := reacts_step_regPort hp
  cases h with
  | portViolation => exact e
  | regRead legal | cfgWrite legal | writeIgnored legal => exact absurd violation legal

/-- A register port word while `BUSY = 1` leaves all but the mark, the values read and the inputs (R230, R231, R286). -/
theorem step_regPort_of_busy {s : State} {w : BitVec 16} {data : Byte} {rest : List Input}
    (hp : s.pending = .regPort w data :: rest) (busy : s.busy = true) :
    ∃ t, step s = .next t ∧
      { t with hostFault := s.hostFault, regReads := s.regReads, pending := s.pending } = s := by
  obtain ⟨t, e, h⟩ := reacts_step_regPort hp
  refine ⟨t, e, ?_⟩
  cases h with
  | regRead | writeIgnored | portViolation => rfl
  | cfgWrite _ idle => exact absurd (busy.symm.trans idle) (by decide)

/-- Settles O16: no input is no step, and of the four inputs a command and a register port word are left (R289). -/
theorem silentTransportLeavesBlockBusy : Obligations.SilentTransportLeavesBlockBusy := by
  refine ⟨fun s busy hp => ?_, fun s x rest busy hp notReset notAnswer => ?_⟩
  · rw [step_empty hp, if_pos busy]
  · cases x with
    | command op operands => exact ⟨_, commandWhileBusyIsHostFault s op operands rest hp busy, rfl⟩
    | regPort w data => exact step_regPort_of_busy hp busy
    | reset => exact absurd rfl notReset
    | answer k a => exact absurd rfl (notAnswer k a)

end Sys2Proof.Proofs
end

section
/-! PROOFS of family 70_reset_and_hazards, O15: a step either issues no request, and then none but the one that waited can
still wait, or issues one with the next number. So a number that has been used and does not wait never waits again. -/

namespace Sys2Proof.Proofs

open Sys2Proof.Machine Sys2Proof.Spec

/-- The request with this number has been issued and no longer waits for its answer. -/
structure Abandoned (k : Nat) (s : State) : Prop where
  used : k < s.reqCount
  notWaiting : ∀ rq, s.outstanding ≠ some (k, rq)

/-- The number of a request that a step leaves waiting: the one that waited, or the next (R34). -/
theorem Effect.outstanding {s t : State} {x : Input} (h : Effect s x t) :
    (t.reqCount = s.reqCount ∧ (t.outstanding = s.outstanding ∨ t.outstanding = none)) ∨
    (t.reqCount = s.reqCount + 1 ∧ ∃ rq, t.outstanding = some (s.reqCount, rq)) := by
  have issued {u : State} {rq : Request} (count : u.reqCount = s.reqCount) (hCount : t.reqCount = u.reqCount + 1)
      (ho : t.outstanding = some (u.reqCount, rq)) :
      t.reqCount = s.reqCount + 1 ∧ ∃ rq, t.outstanding = some (s.reqCount, rq) :=
    count ▸ ⟨hCount, rq, ho⟩
  cases h with
  | commandCompletes _ prep outstanding | disconnects _ prep outstanding =>
    exact .inl ⟨prep.reqCount, .inl outstanding⟩
  | answerCompletes _ prep outstanding => exact .inl ⟨prep.reqCount, .inr outstanding⟩
  | connects _ taken => exact .inl ⟨taken.reqCount, .inr taken.outstanding⟩
  | powersOn _ _ prep | firstFragment _ _ prep => exact .inr (issued prep.reqCount rfl rfl)
  | requestsPps _ taken | nextFragment _ taken | acknowledges _ taken =>
    exact .inr (issued taken.reqCount rfl rfl)
  | reset => exact .inl ⟨rfl, .inr rfl⟩
  | _ => exact .inl ⟨rfl, .inl rfl⟩

/-- An abandoned request stays abandoned. -/
theorem abandoned_step {k : Nat} {s t : State} (hs : Abandoned k s) (ht : step s = .next t) : Abandoned k t := by
  have hUsed := hs.used
  obtain ⟨x, rest, -, h⟩ := step_effect ht
  obtain ⟨count, same | cleared⟩ | ⟨count, rq, next⟩ := h.outstanding
  · exact ⟨count ▸ hUsed, same ▸ hs.notWaiting⟩
  · exact ⟨count ▸ hUsed, by simp [cleared]⟩
  · have hNe : s.reqCount ≠ k := hUsed.ne'
    exact ⟨count ▸ hUsed.trans (Nat.lt_succ_self _), by simp [next, hNe]⟩

/-- What every step keeps holds at the end of a run. -/
theorem run_keeps {P : State → Prop} (keeps : ∀ {s t : State}, P s → step s = .next t → P t) (n : Nat) {s t : State}
    (hs : P s) (hrun : core.run n s = .next t) : P t := by
  induction n generalizing s with
  | zero => cases hrun; exact hs
  | succ n ih =>
    cases h : step s with
    | next u => exact ih (keeps hs h) ((run_succ h n).symm.trans hrun)
    | fault f => simp [Host.Core.run, core, h] at hrun
    | refused r => simp [Host.Core.run, core, h] at hrun

/-- Reset abandons the outstanding request, whose number has been used (R280). -/
theorem abandoned_resetBlock {s : State} {k : Nat} {rq : Request} (hs : Inv s) (ho : s.outstanding = some (k, rq)) :
    Abandoned k (resetBlock s) :=
  ⟨hs.numbered k rq ho, by simp⟩

/-- Settles O15: the request is abandoned at reset and stays so, and its answer is to no outstanding request (R280). -/
theorem answerToAbandonedRequestIsDiscarded : Obligations.AnswerToAbandonedRequestIsDiscarded := by
  intro s t u k n rq a before rest hs ho hp ht hrun hu
  have hReset : Abandoned k t := by
    cases (step_reset hp).symm.trans ht
    exact abandoned_resetBlock (inv_withPorts hs s.hostFault s.regReads before) ho
  exact step_answer_other hu (run_keeps abandoned_step n hReset hrun).notWaiting

end Sys2Proof.Proofs
end
